-- ==== Sys2Proof/Word.lean ====
section
/-!
DEFINITION. The bit vectors of the block: the widths the spec fixes (R7, R8).
Quantities whose width is a parameter of R7 are `Nat` or `Int` with the bound stated apart (log 3).
-/
namespace Sys2Proof

/-- A byte is 8 bits (R8). -/
abbrev Byte := BitVec 8

/-- A device address, `ADDR_W` = 7 bits (R7, R60). -/
abbrev Address := BitVec 7

/-- A phase pattern, `PAT_W` = 4 bits (R7, R201). -/
abbrev Pattern := BitVec 4

/-- `step_delay_ms`, `DELAY_W` = 16 bits unsigned (R7, R24). -/
abbrev Delay := BitVec 16

end Sys2Proof
end

