-- ==== Sys2Proof/Syntax.lean ====
section
/-!
DEFINITION. The instructions: one constructor per row of the opcode table (R91, R100), and the two
raw forms they are encoded in (R90): the request record of the command port and the 3-byte frame.
-/
namespace Sys2Proof

/-- "enum {Forward, Backward}" (R26). -/
inductive Direction where
  | forward
  | backward
deriving DecidableEq, Repr, Inhabited

/-- The four command opcodes, byte 1 of a frame (R92, R210). -/
inductive Opcode where
  | channelSet
  | pwmSet
  | addrChange
  | freqSet
deriving DecidableEq, Repr

/-- The four patterns of the phase table, by their row (R201, R210). -/
inductive PhaseRow where
  | row0
  | row1
  | row2
  | row3
deriving DecidableEq, Repr

/-- The two persist markers (R97, R210). -/
inductive PersistMarker where
  | save
  | noSave
deriving DecidableEq, Repr

/-- A command frame on the transport port: the 7-bit address and the three bytes in the order they
are handed to the transport (R61, R62, R63). -/
structure Frame where
  addr : Address
  b1 : Byte
  b2 : Byte
  b3 : Byte
deriving DecidableEq, Repr

/-- Format HOSTOP: the unpacked request record `(op_sel[2:0], a, b, c)` of the command port (R99).
A slot is the number on its wires; an operand is the low bits its width gives it (R101). -/
structure HostRequest where
  opSel : BitVec 3
  a : Nat
  b : Nat
  c : Nat
deriving DecidableEq, Repr

/-- The raw forms the decoder reads (R90). -/
inductive Wire where
  | hostop (r : HostRequest)
  | frame (f : Frame)
deriving DecidableEq, Repr

/-- The instructions. Operands whose width is a parameter of R7 are mathematical integers (R9); their
ranges are checked in `Instr.wf`. -/
inductive Instr where
  /-- CONSTRUCT (R131). -/
  | construct (stepsPerRevolution : Nat) (initialAddress : Address)
  /-- SET_SPEED (R132). -/
  | setSpeed (rpm : Nat)
  /-- MOVE (R133). -/
  | move (address : Address) (stepCount : Int) (direction : Direction)
  /-- RELEASE (R134). -/
  | release (address : Address)
  /-- CHANGE_ADDRESS (R135). -/
  | changeAddress (currentAddress newAddress : Address) (persist : Bool)
  /-- SET_FREQUENCY (R136). -/
  | setFrequency (address : Address) (prescaler : Byte)
  /-- QUERY_VERSION (R137). -/
  | queryVersion
  /-- The reserved selector 7 (R104); its operand slots are ignored. -/
  | reserved7
  /-- The frame CHANNEL_SET, `send_channel(address, pattern)` (R203). -/
  | channelSet (address : Address) (pattern : Pattern)
  /-- The frame PWM_SET, `send_pwm(address, duty)` (R204). -/
  | pwmSet (address : Address) (duty : Byte)
  /-- The frame ADDR_CHANGE, `send_address_change(address, new_address, persist_marker)` (R206). -/
  | addrChange (address newAddress : Address) (marker : Byte)
  /-- The frame FREQ_SET, `send_frequency_prescaler(address, prescaler)` (R205). -/
  | freqSet (address : Address) (prescaler : Byte)
deriving DecidableEq, Repr

end Sys2Proof
end

