-- ==== Sys2Proof/Config.lean ====
section
/-!
DEFINITION. What an implementation fixes (the parameters of R7) and the free values: what the spec
leaves open, as constants with no body, so that no proof can see what they are.
-/
namespace Sys2Proof

/-- The parameters of R7 that a model takes as arguments. They are carried in `State.params` as plain
data that no step writes (R37, log 3). -/
structure Params where
  /-- `SPR_W`: width of `steps_per_revolution` and `current_phase_index`. -/
  sprW : Nat
  /-- `RPM_W`: width of the `rpm` operand. -/
  rpmW : Nat
  /-- `STEP_W`: width of the `step_count` operand and of `steps_remaining`. -/
  stepW : Nat
  /-- `CLK_W`: width of the clock value and of `last_step_timestamp_ms`. -/
  clkW : Nat
  /-- `DUTY_FULL`: the duty byte that energizes the driver. -/
  dutyFull : Byte
deriving DecidableEq, Repr

/-- The defaults of R7. -/
def Params.default : Params :=
  { sprW := 16, rpmW := 16, stepW := 32, clkW := 32, dutyFull := 0xFF#8 }

/-- What R7, R101 and R175 ask of the parameters: every width positive, `CLK_W` at least 16. -/
abbrev Params.Ok (p : Params) : Prop :=
  1 ≤ p.sprW ∧ 1 ≤ p.rpmW ∧ 1 ≤ p.stepW ∧ 16 ≤ p.clkW

/-- `MS_PER_MIN`, the constant of the delay formula (R7). -/
def msPerMin : Nat := 60000

/-- `VER_W`, the open width of `VERSION` (R7, D23; log 4). -/
opaque Config.verW : Nat

/-- `VERSION`, the constant of QUERY_VERSION; a proof may rely only on its being one constant
(R137, D23; log 4). -/
opaque Config.version : BitVec Config.verW

/-- The transport's free answers: at the n-th free draw for the handle with the number `source` it
reports success or failure, or it has not answered yet (R11, R61, R254, D18; log 5). -/
opaque Config.transportAnswer : (source : Nat) → (n : Nat) → Option Bool

/-- The clock's free advances: the milliseconds that pass before the n-th free sample for the handle
with the number `source` (R245, D18; log 6). -/
opaque Config.clockAdvance : (source : Nat) → (n : Nat) → Nat

/-- What `step_delay_ms` holds after the n-th CONSTRUCT of a handle: unspecified (R38, U11; log 2). -/
opaque Config.freeDelay : (source : Nat) → (n : Nat) → Delay

/-- What `direction` holds after the n-th CONSTRUCT of a handle: unspecified (R38, U11; log 2). -/
opaque Config.freeDirection : (source : Nat) → (n : Nat) → Direction

/-- The quotient of the delay formula for a zero divisor, as a function of the two factors. The spec
says it cannot occur (R184 (c), U1; log 17). -/
opaque Config.quotientByZero : Nat → Nat → Delay

end Sys2Proof
end

