-- ==== Sys2Proof/WellFormed.lean ====
section
/-!
DEFINITION. When an instruction's operands fit the widths the parameters give their slots (R98, R101).
Operands of fixed width are bit vectors and always fit.
-/
namespace Sys2Proof

/-- Every operand is in the range of its port (R98, R101). -/
abbrev Instr.wf (p : Params) : Instr → Prop
  | .construct spr _ => spr < 2 ^ p.sprW
  | .setSpeed rpm => rpm < 2 ^ p.rpmW
  | .move _ n _ => -(2 ^ (p.stepW - 1) : Int) ≤ n ∧ n < 2 ^ (p.stepW - 1)
  | .release _ => True
  | .changeAddress _ _ _ => True
  | .setFrequency _ _ => True
  | .queryVersion => True
  | .reserved7 => True
  | .channelSet _ _ => True
  | .pwmSet _ _ => True
  | .addrChange _ _ _ => True
  | .freqSet _ _ => True

end Sys2Proof
end

