-- ==== Sys2Proof/Decode.lean ====
section
/-!
DEFINITION. The encodings of 30_encoding.md: field widths and sign, the frame builders of the Encoder,
the decoder of both formats (total, rejecting by name) and the encoder.
-/
namespace Sys2Proof

/-! ### Bits -/

/-- `trunc_N(v)` = `v mod 2^N` (R9). -/
def truncTo (w v : Nat) : Nat := v % 2 ^ w

/-- `sext` of a `w`-bit two's-complement field (R9, R101). -/
def signedField (w v : Nat) : Int :=
  if 2 * truncTo w v < 2 ^ w then (truncTo w v : Int) else (truncTo w v : Int) - 2 ^ w

/-- The `w`-bit two's-complement field that holds an integer (R101). -/
def signedBits (w : Nat) (n : Int) : Nat := (n % (2 ^ w : Int)).toNat

/-- Forward = 0, Backward = 1 (R26, D4). -/
def directionBit : Direction → Nat
  | .forward => 0
  | .backward => 1

/-- The direction in the lowest bit of slot c (R101). -/
def directionOfSlot (c : Nat) : Direction := if c % 2 = 0 then .forward else .backward

/-- The boolean in the lowest bit of slot c: 1 is true (R101, D4). -/
def boolOfSlot (c : Nat) : Bool := c % 2 == 1

/-! ### Named constants (R210) -/

/-- The command opcode bytes (R92). -/
def opcodeByte : Opcode → Byte
  | .channelSet => 0xAA#8
  | .pwmSet => 0x82#8
  | .addrChange => 0x83#8
  | .freqSet => 0x84#8

/-- The four phase patterns (R201). -/
def patternBits : PhaseRow → Pattern
  | .row0 => 0b1010#4
  | .row1 => 0b0110#4
  | .row2 => 0b0101#4
  | .row3 => 0b1001#4

/-- `PATTERN_OFF`, "commands all channel bits low" (R209). -/
def patternOff : Pattern := 0b0000#4

/-- `DUTY_OFF`, "commands PWM duty to zero" (R209). The third constant of R209, `DUTY_FULL`, is a
parameter (R7). -/
def dutyOff : Byte := 0x00#8

/-- `'S'` = 0x53 and `'N'` = 0x4E (R97, GK1; log 15). -/
def markerByte : PersistMarker → Byte
  | .save => 0x53#8
  | .noSave => 0x4E#8

/-- `persist = 1` is sent as `'S'`, `persist = 0` as `'N'` (R97, D6). -/
def markerOf : Bool → PersistMarker
  | true => .save
  | false => .noSave

/-- The fixed trailing byte of CHANNEL_SET and FREQ_SET (R93, R95). -/
def paddingByte : Byte := 0x00#8

/-! ### The frames (R93 to R96, R203 to R206) -/

/-- `{CHANNEL_SET, zext_8(pattern), 0x00}` (R93, R203). -/
def channelSetFrame (address : Address) (pattern : Pattern) : Frame :=
  { addr := address, b1 := opcodeByte .channelSet, b2 := pattern.zeroExtend 8, b3 := paddingByte }

/-- `{PWM_SET, duty, duty}` (R94, R204). -/
def pwmSetFrame (address : Address) (duty : Byte) : Frame :=
  { addr := address, b1 := opcodeByte .pwmSet, b2 := duty, b3 := duty }

/-- `{ADDR_CHANGE, zext_8(new_address), persist_marker}` (R96, R206). -/
def addrChangeFrame (address newAddress : Address) (marker : Byte) : Frame :=
  { addr := address, b1 := opcodeByte .addrChange, b2 := newAddress.zeroExtend 8, b3 := marker }

/-- `{FREQ_SET, prescaler, 0x00}` (R95, R205). -/
def freqSetFrame (address : Address) (prescaler : Byte) : Frame :=
  { addr := address, b1 := opcodeByte .freqSet, b2 := prescaler, b3 := paddingByte }

/-- The frame as one 24-bit word, byte 1 in bits 23:16 (R91). -/
def frameWord (f : Frame) : BitVec 24 := f.b1 ++ f.b2 ++ f.b3

/-- The frame of a 24-bit word at a device address (R91). -/
def frameOfWord (address : Address) (w : BitVec 24) : Frame :=
  { addr := address
    b1 := w.extractLsb' 16 8
    b2 := w.extractLsb' 8 8
    b3 := w.extractLsb' 0 8 }

/-! ### Decoding -/

/-- Why three bytes are no frame of the four formats (R103). -/
inductive DecodeError where
  /-- Byte 1 is none of 0xAA, 0x82, 0x83, 0x84. -/
  | unknownOpcode
  /-- CHANNEL_SET with a non-zero upper nibble of byte 2. -/
  | channelUpperNibble
  /-- CHANNEL_SET whose byte 3 is not 0x00. -/
  | channelPadding
  /-- PWM_SET whose two duty bytes differ. -/
  | dutyBytesDiffer
  /-- ADDR_CHANGE whose byte 2 has bit 7 set. -/
  | addressBit7
  /-- FREQ_SET whose byte 3 is not 0x00. -/
  | freqPadding
deriving DecidableEq, Repr

/-- The frame command three bytes at an address stand for (R91, R93 to R96). -/
def decodeFrame (f : Frame) : Except DecodeError Instr :=
  if f.b1 = opcodeByte .channelSet then
    if f.b2.extractLsb' 4 4 ≠ 0#4 then .error .channelUpperNibble
    else if f.b3 ≠ paddingByte then .error .channelPadding
    else .ok (.channelSet f.addr (f.b2.extractLsb' 0 4))
  else if f.b1 = opcodeByte .pwmSet then
    if f.b2 ≠ f.b3 then .error .dutyBytesDiffer
    else .ok (.pwmSet f.addr f.b2)
  else if f.b1 = opcodeByte .addrChange then
    if f.b2.extractLsb' 7 1 ≠ 0#1 then .error .addressBit7
    else .ok (.addrChange f.addr (f.b2.extractLsb' 0 7) f.b3)
  else if f.b1 = opcodeByte .freqSet then
    if f.b3 ≠ paddingByte then .error .freqPadding
    else .ok (.freqSet f.addr f.b2)
  else .error .unknownOpcode

/-- The operation a request on the command port stands for (R100, R101): every selector has one, and
unused operand fields are ignored. -/
def decodeRequest (p : Params) (r : HostRequest) : Instr :=
  match r.opSel.toNat with
  | 0 => .construct (truncTo p.sprW r.a) (BitVec.ofNat 7 r.b)
  | 1 => .setSpeed (truncTo p.rpmW r.a)
  | 2 => .move (BitVec.ofNat 7 r.a) (signedField p.stepW r.b) (directionOfSlot r.c)
  | 3 => .release (BitVec.ofNat 7 r.a)
  | 4 => .changeAddress (BitVec.ofNat 7 r.a) (BitVec.ofNat 7 r.b) (boolOfSlot r.c)
  | 5 => .setFrequency (BitVec.ofNat 7 r.a) (BitVec.ofNat 8 r.b)
  | 6 => .queryVersion
  | _ => .reserved7

/-- The decoder of both formats (R90). -/
def decode (p : Params) : Wire → Except DecodeError Instr
  | .hostop r => .ok (decodeRequest p r)
  | .frame f => decodeFrame f

/-! ### Encoding -/

/-- The raw form of an instruction (R91, R100, R101); unused slots are 0. -/
def encode (p : Params) : Instr → Wire
  | .construct spr a => .hostop { opSel := 0#3, a := spr, b := a.toNat, c := 0 }
  | .setSpeed rpm => .hostop { opSel := 1#3, a := rpm, b := 0, c := 0 }
  | .move a n d => .hostop { opSel := 2#3, a := a.toNat, b := signedBits p.stepW n, c := directionBit d }
  | .release a => .hostop { opSel := 3#3, a := a.toNat, b := 0, c := 0 }
  | .changeAddress c n s => .hostop { opSel := 4#3, a := c.toNat, b := n.toNat, c := s.toNat }
  | .setFrequency a s => .hostop { opSel := 5#3, a := a.toNat, b := s.toNat, c := 0 }
  | .queryVersion => .hostop { opSel := 6#3, a := 0, b := 0, c := 0 }
  | .reserved7 => .hostop { opSel := 7#3, a := 0, b := 0, c := 0 }
  | .channelSet a pat => .frame (channelSetFrame a pat)
  | .pwmSet a d => .frame (pwmSetFrame a d)
  | .addrChange a n m => .frame (addrChangeFrame a n m)
  | .freqSet a s => .frame (freqSetFrame a s)

/-! ### The opcode table's numbering -/

/-- The raw form whose table bits are `w`. A HOSTOP row has its 3 selector bits (the record is
unpacked, R99), and its slots are 0; a FRAME row has its 24 bits, and the address on the port is 0
(log 26). -/
def tableWire (nbits w : Nat) : Wire :=
  if nbits < 24 then .hostop { opSel := BitVec.ofNat 3 w, a := 0, b := 0, c := 0 }
  else .frame (frameOfWord 0#7 (BitVec.ofNat 24 w))

/-- The instruction the decoder reads from a table row's bits, at the default parameters. -/
def decodeTableWord (nbits w : Nat) : Option Instr :=
  match decode Params.default (tableWire nbits w) with
  | .ok i => some i
  | .error _ => none

end Sys2Proof
end

