-- ==== Sys2Proof/Machine/State.lean ====
section
/-!
DEFINITION. The state of the block (R20, R31, R62, R173), the observation (R12), the inputs a model
must carry (R37), the other agents as plain data (R11), and the state after reset (R38, R270).
-/
namespace Sys2Proof.Machine

/-- The two operational states of the Scheduler (R30, R170). -/
inductive Fsm where
  | idle
  | stepping
deriving DecidableEq, Repr

/-- The micro-states of the sequencer: `IDLE` and nine busy ones (R31). -/
inductive Seq where
  | idle
  | mvEnergize
  | mvPoll
  | mvEmit
  | mvRelPwm
  | mvRelCh
  | rlPwm
  | rlCh
  | caSend
  | fqSend
deriving DecidableEq, Repr

/-- The status codes by name (R235); `rangeError` is never produced (R233). -/
inductive Status where
  | ok
  | configError
  | transportError
  | rangeError
  | illegalOp
deriving DecidableEq, Repr

/-- A response `(status, value)`; only QUERY_VERSION carries a value (R102). -/
structure Response where
  status : Status
  value : Option (BitVec Config.verW)
deriving DecidableEq, Repr

/-- One event of the frame trace: the frame and the transport's answer, success = true (R12). -/
structure Event where
  frame : Frame
  ok : Bool
deriving DecidableEq, Repr

/-- The MotorHandle (R20). -/
structure MotorHandle where
  /-- 0 until the first successful CONSTRUCT (R21). -/
  constructed : Bool
  /-- The last address written by CONSTRUCT, MOVE, RELEASE or CHANGE_ADDRESS (R22). -/
  deviceAddress : Address
  /-- `SPR_W` bits unsigned (R23). -/
  stepsPerRevolution : Nat
  /-- `DELAY_W` bits unsigned (R24). -/
  stepDelayMs : Delay
  /-- 0 from CONSTRUCT to the first successful SET_SPEED (R24). -/
  stepDelayValid : Bool
  /-- `SPR_W` bits unsigned, the step index within one revolution (R25). -/
  currentPhaseIndex : Nat
  /-- Written by MOVE (R26). -/
  direction : Direction
  /-- `CLK_W` bits unsigned, the clock sample of the most recent step (R27). -/
  lastStepTimestampMs : Nat
  /-- `STEP_W` bits unsigned (R28). -/
  stepsRemaining : Nat
  /-- Idle or Stepping (R30). -/
  fsm : Fsm
  /-- The micro-state (R31). -/
  seq : Seq
  /-- Some frame of the operation failed (R32). -/
  opErr : Bool
deriving DecidableEq, Repr

/-- The operands of the accepted request that later rows read: they "stay readable until the
response" (R173, log 10). The address of MOVE and of RELEASE is in `deviceAddress`. -/
structure Held where
  /-- MOVE's slot b, read by `MV_ENERGIZE`. -/
  stepCount : Int
  /-- CHANGE_ADDRESS's slots, read by `CA_SEND`. -/
  currentAddress : Address
  newAddress : Address
  persist : Bool
  /-- SET_FREQUENCY's slots, read by `FQ_SEND`. -/
  freqAddress : Address
  prescaler : Byte
deriving DecidableEq, Repr

/-- The transport port: one request outstanding at most, then its completion `xp_ok` (R61, R62). -/
inductive XpPort where
  | idle
  | requested (f : Frame)
  | answered (ok : Bool)
deriving DecidableEq, Repr

/-- The other agents as plain data: the model's own fields, not the spec's (R11, R37). -/
structure Env where
  /-- The number of this handle among those of a `System`: each number has its own free draws, so the
  draws of two handles are independent (R11, R71; log 5, 6, 19). -/
  source : Nat
  /-- The requests the host has still to issue, the next one first (log 7). -/
  program : List HostRequest
  /-- Transport answers placed from outside, the next one first: `some ok`, or `none` for "not
  answered yet"; when the list is empty the answer is a free value (log 5). -/
  answers : List (Option Bool)
  /-- How many free answers have been drawn (log 5). -/
  answerDraws : Nat
  /-- The clock's mathematical time in milliseconds at its last sample (R245, log 6). -/
  clock : Nat
  /-- Milliseconds by which the clock advances before each of the next samples, placed from outside;
  when the list is empty the advance is a free value (log 6). -/
  ticks : List Nat
  /-- How many free advances have been drawn (log 6). -/
  tickDraws : Nat
  /-- How many times CONSTRUCT has left the free values of R38 (log 2). -/
  freeDraws : Nat
deriving DecidableEq, Repr

/-- One instance of the hardware with what surrounds it. -/
structure State where
  /-- The MotorHandle (R20). -/
  handle : MotorHandle
  /-- The accepted request's operands (R173). -/
  held : Held
  /-- The command port: the request the host presents, until the block accepts it (R99, R130). -/
  cmd : Option HostRequest
  /-- The transport port (R62). -/
  xp : XpPort
  /-- The clock input `clk_ms`: the sample the clock has given for the poll in progress, until the poll
  reads it (R244; log 6). -/
  sample : Option Nat
  /-- The frame trace, oldest event first (R12). -/
  trace : List Event
  /-- The responses delivered, oldest first (R102). -/
  responses : List Response
  /-- The parameters of R7; no step writes them (log 3). -/
  params : Params
  /-- Which transport instance the handle is bound to; no step writes it (R37). -/
  transport : Nat
  /-- The host, the transport's answers and the clock (R11). -/
  env : Env
deriving DecidableEq, Repr

/-- There is no fault: "no rule of the block makes it trap" (R254, R238). No step and no meaning ends
in one (log 28). -/
inductive Fault where
deriving DecidableEq, Repr

/-- Why a step or a meaning gives no next state. -/
inductive Refusal where
  /-- Raised by an arm of `exec` whose instruction has no meaning yet (no arm now). Safe. -/
  | notModelled (mnemonic : String)
  /-- Raised by the meaning of a host operation when the block is busy: "The host presenting a request
  while busy has no move in the model" (D26, R130). `step` never presents one. Safe (log 13). -/
  | portNotReady
  /-- Raised by `step` when the bytes outstanding on the transport port are none of the four frames of
  R91, which the block never emits (R103). Safe (log 14). -/
  | undecodableFrame (e : DecodeError)
deriving DecidableEq, Repr

/-- The handle after hardware reset: the values R38 gives; where it gives none, 0 (log 1). -/
def MotorHandle.reset : MotorHandle :=
  { constructed := false
    deviceAddress := 0#7
    stepsPerRevolution := 0
    stepDelayMs := 0#16
    stepDelayValid := false
    currentPhaseIndex := 0
    direction := .forward
    lastStepTimestampMs := 0
    stepsRemaining := 0
    fsm := .idle
    seq := .idle
    opErr := false }

/-- No operand has been presented yet (log 10). -/
def Held.reset : Held :=
  { stepCount := 0
    currentAddress := 0#7
    newAddress := 0#7
    persist := false
    freqAddress := 0#7
    prescaler := 0#8 }

/-- Nothing is placed from outside and nothing has been drawn (log 5, 6, 7); one handle (log 19). -/
def Env.reset : Env :=
  { source := 0
    program := []
    answers := []
    answerDraws := 0
    clock := 0
    ticks := []
    tickDraws := 0
    freeDraws := 0 }

/-- The machine right after hardware reset (R38, R270): no frame sent, no clock read. -/
def State.reset : State :=
  { handle := .reset
    held := .reset
    cmd := none
    xp := .idle
    sample := none
    trace := []
    responses := []
    params := .default
    transport := 0
    env := .reset }

end Sys2Proof.Machine
end

