-- ==== Sys2Proof/Machine/Operands.lean ====
section
/-!
DEFINITION. Operand forms and the arithmetic of R184: what a row computes from the handle, the
operands and a clock sample.
-/
namespace Sys2Proof.Machine

/-! ### The phase table (R177, R201) -/

/-- "i mod 4 = i[1:0] for unsigned i" (R177, R184 (e)). -/
def phaseIndex (i : Nat) : BitVec 2 := BitVec.ofNat 2 i

/-- The four patterns in the table's order, by name (R201, R210). -/
def phaseTable : Vector Pattern 4 :=
  #v[patternBits .row0, patternBits .row1, patternBits .row2, patternBits .row3]

/-- "Fixed lookup table, not computed" (R201). -/
def phasePattern (i : BitVec 2) : Pattern := phaseTable[i.toNat]'i.isLt

/-- The pattern of a step index (R177). -/
def patternOf (i : Nat) : Pattern := phasePattern (phaseIndex i)

/-! ### Arithmetic (R184) -/

/-- `60000 div (spr * rpm)`, the product exact (R132, R184 (a)). A zero divisor "cannot occur"
(R184 (c)); its quotient is a free value (log 17). -/
def stepDelay (spr rpm : Nat) : Delay :=
  if spr * rpm = 0 then Config.quotientByZero spr rpm
  else BitVec.ofNat 16 (msPerMin / (spr * rpm))

/-- `|sext(step_count)|` over the mathematical integers (R184 (f)). -/
def stepMagnitude (n : Int) : Nat := n.natAbs

/-- `Advance()` by compare-and-reset (R176, R184 (d)). The comparison `i = spr - 1` is read over the
mathematical integers (R9). -/
def advanceIndex (spr : Nat) (d : Direction) (i : Nat) : Nat :=
  match d with
  | .forward => if i + 1 = spr then 0 else i + 1
  | .backward => if i = 0 then spr - 1 else i - 1

/-- `trunc_CLK_W(t - last)` (R175, R184 (h)). -/
def elapsedMs (clkW t last : Nat) : Nat := (((t : Int) - (last : Int)) % (2 ^ clkW : Int)).toNat

/-- The gate of R174: `elapsed >= step_delay_ms`, unsigned. -/
def gateOpen (p : Params) (h : MotorHandle) (t : Nat) : Bool :=
  h.stepDelayMs.toNat ≤ elapsedMs p.clkW t h.lastStepTimestampMs

end Sys2Proof.Machine
end

