-- ==== Sys2Proof/Machine/Flags.lean ====
section
/-!
DEFINITION. The one flag, `op_err` (R32), and the status codes it and the checks select (R235, R237).
-/
namespace Sys2Proof.Machine

/-- The 3-bit status code (R235). -/
def statusCode : Status → BitVec 3
  | .ok => 0#3
  | .configError => 1#3
  | .transportError => 2#3
  | .rangeError => 3#3
  | .illegalOp => 4#3

/-- `op_err <- 0` at acceptance (R32, R130). -/
def clearErr (h : MotorHandle) : MotorHandle := { h with opErr := false }

/-- `note_err(ok)`: `if ok = failure then h.op_err <- 1` (R10, R32). -/
def noteErr (ok : Bool) (h : MotorHandle) : MotorHandle := { h with opErr := h.opErr || !ok }

/-- `if h.op_err = 1 then TRANSPORT_ERROR else OK` (R130, R232). -/
def opStatus (h : MotorHandle) : Status := if h.opErr then .transportError else .ok

end Sys2Proof.Machine
end

