-- ==== Sys2Proof/Machine/Ops.lean ====
section
/-!
DEFINITION. The named operations over State that the meanings and the sequencer share: updates,
responses, the transport primitive, the clock primitive, and acceptance. An error of this block is a
status in a response (R238): `respond` is what stands for taking an exception, and there is no return.
-/
namespace Sys2Proof.Machine

/-! ### Updates, one per part of State -/

def State.setHandle (s : State) (h : MotorHandle) : State := { s with handle := h }

def State.setHeld (s : State) (x : Held) : State := { s with held := x }

def State.setCmd (s : State) (r : Option HostRequest) : State := { s with cmd := r }

def State.setXp (s : State) (x : XpPort) : State := { s with xp := x }

def State.setSample (s : State) (t : Option Nat) : State := { s with sample := t }

def State.setEnv (s : State) (e : Env) : State := { s with env := e }

/-- One event more in the frame trace (R12). -/
def State.record (s : State) (e : Event) : State := { s with trace := s.trace ++ [e] }

/-- One response more (R102, R130). -/
def State.deliver (s : State) (r : Response) : State := { s with responses := s.responses ++ [r] }

/-! ### Responses -/

/-- `respond(status)` (R10); with `raise`, nothing else changes (R10, R238). -/
def respond (st : Status) (s : State) : State := s.deliver { status := st, value := none }

/-- `respond(OK, VERSION)` (R137). -/
def respondVersion (s : State) : State :=
  s.deliver { status := .ok, value := some Config.version }

/-- The end of an operation that took rows: back to `IDLE`, response by `op_err` (R130, R173). -/
def finishOp (s : State) : State :=
  respond (opStatus s.handle) (s.setHandle { s.handle with seq := .idle })

/-! ### The transport (R61, R62) -/

/-- The transport agent's answer to the outstanding request, if it has answered: placed from outside,
otherwise the next free draw of this handle (R11, R76). That free draws are one function of the handle's
number and a counter is the model's choice (log 5). -/
def drawAnswer (e : Env) : Option Bool × Env :=
  match e.answers with
  | a :: rest => (a, { e with answers := rest })
  | [] => (Config.transportAnswer e.source e.answerDraws, { e with answerDraws := e.answerDraws + 1 })

/-- What the answer to `f` leaves: the completion on the port and the event in the trace (R10, R12);
without an answer the request stays outstanding (R61, R254). -/
def complete (f : Frame) (a : Option Bool) (s : State) : State :=
  match a with
  | none => s.setXp (.requested f)
  | some ok => (s.setXp (.answered ok)).record { frame := f, ok := ok }

/-- `SendFrame`: the frame stands on the port, and the transport answers it or has not answered yet (R10,
R61, R62; log 8, 9). -/
def sendFrame (f : Frame) (s : State) : State :=
  complete f (drawAnswer s.env).1 (s.setEnv (drawAnswer s.env).2)

/-! ### The clock (R244, R245) -/

/-- The clock agent moves on before a sample: by an advance placed from outside, otherwise by the next
free one of this handle; it never goes back (R245). That free advances are one function of the handle's
number and a counter is the model's choice (log 6). -/
def tick (e : Env) : Env :=
  match e.ticks with
  | d :: rest => { e with clock := e.clock + d, ticks := rest }
  | [] => { e with clock := e.clock + Config.clockAdvance e.source e.tickDraws, tickDraws := e.tickDraws + 1 }

/-- The sample `NowMs` gives: the clock's time presented modulo `2^CLK_W` (R244, R245). -/
def clockSample (p : Params) (e : Env) : Nat := truncTo p.clkW e.clock

/-! ### Acceptance (R130) -/

/-- "The block is busy exactly when `seq != IDLE`" (R31). -/
def State.busy (s : State) : Bool := s.handle.seq != .idle

/-- The acceptance checks of R130 in their order, then the operation: `needsHandle` says that the
operation is refused on an unconstructed handle, `configOk` is its own configuration check. -/
def acceptOp (needsHandle configOk : Bool) (body : State → State) (s : State) :
    Host.Outcome State Fault Refusal :=
  if s.busy then .refused .portNotReady
  else if needsHandle && !s.handle.constructed then .next (respond .illegalOp s)
  else if !configOk then .next (respond .configError s)
  else .next (body (s.setHandle (clearErr s.handle)))

end Sys2Proof.Machine
end

