-- ==== Sys2Proof/Machine/Encoder.lean ====
section
/-!
DEFINITION. The Channel Protocol Encoder: the meanings of the four frame commands (R200, R203 to R206).
Each makes exactly one `SendFrame` and writes no field of the handle (R207, R208); the result is the
completion on the transport port, which the Scheduler's row reads.
-/
namespace Sys2Proof.Machine

/-- `send_channel(address, pattern)` (R203). -/
def execChannelSet (address : Address) (pattern : Pattern) (s : State) :
    Host.Outcome State Fault Refusal :=
  .next (sendFrame (channelSetFrame address pattern) s)

/-- `send_pwm(address, duty)` (R204). -/
def execPwmSet (address : Address) (duty : Byte) (s : State) : Host.Outcome State Fault Refusal :=
  .next (sendFrame (pwmSetFrame address duty) s)

/-- `send_address_change(address, new_address, persist_marker)` (R206). -/
def execAddrChange (address newAddress : Address) (marker : Byte) (s : State) :
    Host.Outcome State Fault Refusal :=
  .next (sendFrame (addrChangeFrame address newAddress marker) s)

/-- `send_frequency_prescaler(address, prescaler)` (R205). -/
def execFreqSet (address : Address) (prescaler : Byte) (s : State) :
    Host.Outcome State Fault Refusal :=
  .next (sendFrame (freqSetFrame address prescaler) s)

end Sys2Proof.Machine
end

