-- ==== Sys2Proof/Machine/Scheduler.lean ====
section
/-!
DEFINITION. The Step Scheduler: the meanings of the host operations in the `IDLE` row of R173. The
operations that send frames go on in the rows of Sequencer.lean; the others end here (log 8).
-/
namespace Sys2Proof.Machine

/-- What CONSTRUCT leaves in the handle (R131, R38); `delay` and `d` are the free values of
`step_delay_ms` and `direction`, which R38 leaves unspecified (log 2). -/
def constructedHandle (spr : Nat) (address : Address) (delay : Delay) (d : Direction)
    (h : MotorHandle) : MotorHandle :=
  { h with
    constructed := true
    stepsPerRevolution := spr
    deviceAddress := address
    currentPhaseIndex := 0
    lastStepTimestampMs := 0
    stepsRemaining := 0
    stepDelayValid := false
    stepDelayMs := delay
    direction := d
    fsm := .idle
    seq := .idle }

/-- CONSTRUCT (R131). -/
def execConstruct (spr : Nat) (address : Address) (s : State) : Host.Outcome State Fault Refusal :=
  acceptOp false (spr != 0)
    (fun s => respond .ok
      ((s.setHandle (constructedHandle spr address (Config.freeDelay s.env.source s.env.freeDraws)
          (Config.freeDirection s.env.source s.env.freeDraws) s.handle)).setEnv
        { s.env with freeDraws := s.env.freeDraws + 1 })) s

/-- SET_SPEED (R132). -/
def execSetSpeed (rpm : Nat) (s : State) : Host.Outcome State Fault Refusal :=
  acceptOp true (rpm != 0)
    (fun s => respond .ok
      (s.setHandle { s.handle with
        stepDelayMs := stepDelay s.handle.stepsPerRevolution rpm
        stepDelayValid := true })) s

/-- MOVE: its `IDLE` row (R133 step 1, R173). The sign of the count is discarded when it is loaded
(R133 (a)). -/
def execMove (address : Address) (stepCount : Int) (d : Direction) (s : State) :
    Host.Outcome State Fault Refusal :=
  acceptOp true s.handle.stepDelayValid
    (fun s => (s.setHandle { s.handle with
        deviceAddress := address
        direction := d
        fsm := .stepping
        seq := .mvEnergize }).setHeld { s.held with stepCount := stepCount }) s

/-- RELEASE: its `IDLE` row (R134, R173). -/
def execRelease (address : Address) (s : State) : Host.Outcome State Fault Refusal :=
  acceptOp true true
    (fun s => s.setHandle { s.handle with deviceAddress := address, seq := .rlPwm }) s

/-- CHANGE_ADDRESS: its `IDLE` row (R135, R173). -/
def execChangeAddress (currentAddress newAddress : Address) (persist : Bool) (s : State) :
    Host.Outcome State Fault Refusal :=
  acceptOp true true
    (fun s => (s.setHandle { s.handle with seq := .caSend }).setHeld
      { s.held with
        currentAddress := currentAddress
        newAddress := newAddress
        persist := persist }) s

/-- SET_FREQUENCY: its `IDLE` row; `device_address` is not updated (R136, R173). -/
def execSetFrequency (address : Address) (prescaler : Byte) (s : State) :
    Host.Outcome State Fault Refusal :=
  acceptOp true true
    (fun s => (s.setHandle { s.handle with seq := .fqSend }).setHeld
      { s.held with freqAddress := address, prescaler := prescaler }) s

/-- QUERY_VERSION, accepted whether or not the handle is constructed (R137). -/
def execQueryVersion (s : State) : Host.Outcome State Fault Refusal :=
  acceptOp false true respondVersion s

/-- The reserved selector: status ILLEGAL_OP, no state change, no frame (R104, R130 check 1, R234). -/
def execReserved7 (s : State) : Host.Outcome State Fault Refusal :=
  if s.busy then .refused .portNotReady else .next (respond .illegalOp s)

end Sys2Proof.Machine
end

