-- ==== Sys2Proof/Machine/Dispatch.lean ====
section
/-! DEFINITION. One arm per instruction: its meaning. -/
namespace Sys2Proof.Machine

def exec (i : Instr) (s : State) : Host.Outcome State Fault Refusal :=
  match i with
  | .construct spr address => Sys2Proof.Machine.execConstruct spr address s
  | .setSpeed rpm => Sys2Proof.Machine.execSetSpeed rpm s
  | .move address stepCount d => Sys2Proof.Machine.execMove address stepCount d s
  | .release address => Sys2Proof.Machine.execRelease address s
  | .changeAddress current new persist => Sys2Proof.Machine.execChangeAddress current new persist s
  | .setFrequency address prescaler => Sys2Proof.Machine.execSetFrequency address prescaler s
  | .queryVersion => Sys2Proof.Machine.execQueryVersion s
  | .reserved7 => Sys2Proof.Machine.execReserved7 s
  | .channelSet address pattern => Sys2Proof.Machine.execChannelSet address pattern s
  | .pwmSet address duty => Sys2Proof.Machine.execPwmSet address duty s
  | .addrChange address new marker => Sys2Proof.Machine.execAddrChange address new marker s
  | .freqSet address prescaler => Sys2Proof.Machine.execFreqSet address prescaler s

end Sys2Proof.Machine
end

