-- ==== Sys2Proof/Machine/Sequencer.lean ====
section
/-!
DEFINITION. The busy rows of the micro-step table (R173): the frame each SendFrame row presents, what the
row does when the transport has answered, and the poll (R174). And where an instruction is placed for the
next step.
-/
namespace Sys2Proof.Machine

/-- The frame a SendFrame row presents (R173), by the Encoder's builders (R203 to R206); `IDLE` and
`MV_POLL` present none. -/
def rowFrame (s : State) : Option Frame :=
  match s.handle.seq with
  | .idle => none
  | .mvEnergize => some (pwmSetFrame s.handle.deviceAddress s.params.dutyFull)
  | .mvPoll => none
  | .mvEmit => some (channelSetFrame s.handle.deviceAddress (patternOf s.handle.currentPhaseIndex))
  | .mvRelPwm => some (pwmSetFrame s.handle.deviceAddress dutyOff)
  | .mvRelCh => some (channelSetFrame s.handle.deviceAddress patternOff)
  | .rlPwm => some (pwmSetFrame s.handle.deviceAddress dutyOff)
  | .rlCh => some (channelSetFrame s.handle.deviceAddress patternOff)
  | .caSend =>
    some (addrChangeFrame s.held.currentAddress s.held.newAddress (markerByte (markerOf s.held.persist)))
  | .fqSend => some (freqSetFrame s.held.freqAddress s.held.prescaler)

/-- The first half of a SendFrame row: the frame is presented on the port (R62, R208). -/
def presentRow (s : State) : State :=
  match rowFrame s with
  | some f => s.setXp (.requested f)
  | none => s

/-- What a SendFrame row does once its frame is answered (R173): the state's own writes and the next
row. None of it depends on the answer (R76, R240). -/
def rowEffect (s : State) : State :=
  match s.handle.seq with
  | .idle => s
  | .mvEnergize =>
    s.setHandle { s.handle with stepsRemaining := stepMagnitude s.held.stepCount, seq := .mvPoll }
  | .mvPoll => s
  | .mvEmit => s.setHandle { s.handle with seq := .mvPoll }
  | .mvRelPwm => s.setHandle { s.handle with seq := .mvRelCh }
  | .mvRelCh => finishOp (s.setHandle { s.handle with fsm := .idle })
  | .rlPwm => s.setHandle { s.handle with seq := .rlCh }
  | .rlCh => finishOp s
  | .caSend => finishOp (s.setHandle { s.handle with deviceAddress := s.held.newAddress })
  | .fqSend => finishOp s

/-- The second half of a SendFrame row: the completion `ok` is taken off the port, `note_err(ok)`, then
the row's effect. With no operation in progress there is nothing to note (log 22). -/
def takeCompletion (ok : Bool) (s : State) : State :=
  if s.busy then rowEffect ((s.setXp .idle).setHandle (noteErr ok s.handle)) else s.setXp .idle

/-- The step of an open gate, in the order of R178: timestamp, index, count; the frame is the next
row's (R173, R174, R176). -/
def steppedHandle (t : Nat) (h : MotorHandle) : MotorHandle :=
  { h with
    lastStepTimestampMs := t
    currentPhaseIndex := advanceIndex h.stepsPerRevolution h.direction h.currentPhaseIndex
    stepsRemaining := h.stepsRemaining - 1
    seq := .mvEmit }

/-- A poll with the clock sample `t` (R174): a closed gate changes nothing. -/
def pollAt (t : Nat) (s : State) : State :=
  if gateOpen s.params s.handle t then s.setHandle (steppedHandle t s.handle) else s

/-- The row `MV_POLL` (R173): no clock read when no step remains, otherwise the one sample the clock has
given is read (R174, R244); without a sample the row waits for one. -/
def pollRow (s : State) : State :=
  if s.handle.stepsRemaining = 0 then s.setHandle { s.handle with seq := .mvRelPwm }
  else
    match s.sample with
    | none => s
    | some t => pollAt t (s.setSample none)

/-- `s` with a request placed so that the next step runs it: the block ready, the request on the command
port (log 26). -/
def placeRequest (r : HostRequest) (s : State) : State :=
  ((s.setXp .idle).setHandle { s.handle with seq := .idle }).setCmd (some r)

/-- `s` with the raw form placed where the next step runs it (log 26). -/
def placeWire (w : Wire) (s : State) : State :=
  match w with
  | .hostop r => placeRequest r s
  | .frame f => s.setXp (.requested f)

end Sys2Proof.Machine
end

