-- ==== Sys2Proof/Machine/Agents.lean ====
section
/-!
DEFINITION. The four agents of R11, each with its own step, and whose turn it is. Each port is a blocking
call and return (D1), so the ports say who moves next.
-/
namespace Sys2Proof.Machine

/-- The four agents (R11). -/
inductive Agent where
  | host
  | sequencer
  | transport
  | clock
deriving DecidableEq, Repr

/-- Whose turn it is: the transport's while a frame is outstanding (R61), the clock's while a poll needs
a sample (R244), the host's while the block is ready and no request is presented (R130), otherwise the
sequencer's. -/
def turn (s : State) : Agent :=
  match s.xp with
  | .requested _ => .transport
  | .answered _ => .sequencer
  | .idle =>
    match s.handle.seq with
    | .idle => if s.cmd = none then .host else .sequencer
    | .mvPoll => if s.handle.stepsRemaining ≠ 0 ∧ s.sample = none then .clock else .sequencer
    | .mvEnergize | .mvEmit | .mvRelPwm | .mvRelCh | .rlPwm | .rlCh | .caSend | .fqSend => .sequencer

/-- The host's step: it presents its next request, or has none and waits (R11, R276; log 7). -/
def hostStep (s : State) : State :=
  match s.env.program with
  | [] => s
  | r :: rest => (s.setCmd (some r)).setEnv { s.env with program := rest }

/-- The transport's step: the frame command that stands on its port gets its answer, or none yet (R11,
R61). -/
def transportStep (s : State) : Host.Outcome State Fault Refusal :=
  match s.xp with
  | .requested f =>
    match decodeFrame f with
    | .ok i => exec i s
    | .error e => .refused (.undecodableFrame e)
  | .answered _ => .next s
  | .idle => .next s

/-- The clock's step: it moves on and gives the sample the poll asks for (R11, R244, R245). -/
def clockStep (s : State) : State :=
  (s.setEnv (tick s.env)).setSample (some (clockSample s.params (tick s.env)))

/-- The row `IDLE`: the request presented is taken off the command port and run (R130, R173). -/
def idleRow (s : State) : Host.Outcome State Fault Refusal :=
  match s.cmd with
  | none => .next s
  | some r => exec (decodeRequest s.params r) (s.setCmd none)

/-- The sequencer's step: it takes a completion, or runs its row as far as the row's one external call
(R11, R173). -/
def sequencerStep (s : State) : Host.Outcome State Fault Refusal :=
  match s.xp with
  | .answered ok => .next (takeCompletion ok s)
  | .requested _ => .next s
  | .idle =>
    match s.handle.seq with
    | .idle => idleRow s
    | .mvPoll => .next (pollRow s)
    | .mvEnergize | .mvEmit | .mvRelPwm | .mvRelCh | .rlPwm | .rlCh | .caSend | .fqSend =>
      .next (presentRow s)

/-- The step of an agent. -/
def agentStep (g : Agent) (s : State) : Host.Outcome State Fault Refusal :=
  match g with
  | .host => .next (hostStep s)
  | .sequencer => sequencerStep s
  | .transport => transportStep s
  | .clock => .next (clockStep s)

end Sys2Proof.Machine
end

