-- ==== Sys2Proof/Machine/Step.lean ====
section
/-!
DEFINITION. One step of the machine: one step of the agent whose turn it is (R11, R173; log 8).
-/
namespace Sys2Proof.Machine

/-- One step. -/
def step (s : State) : Host.Outcome State Fault Refusal := agentStep (turn s) s

/-- `s` with the instruction of a table row's bits placed where `step` fetches next (log 26). -/
def State.withFetchWord (s : State) (nbits w : Nat) : State := placeWire (tableWire nbits w) s

end Sys2Proof.Machine
end

