-- ==== Sys2Proof/Machine/Handles.lean ====
section
/-!
DEFINITION. Several handles on one transport (R29, R71, R248, R249): each handle is one instance of the
machine with its own state; they share the transport and the clock, and nothing else. The global frame
trace is the interleaving the schedule gives, one whole frame at a time (log 19).
-/
namespace Sys2Proof.Machine

/-- One frame on the shared transport: which handle sent it, and the event. -/
structure BusEvent where
  handle : Nat
  event : Event
deriving DecidableEq, Repr

/-- Handles on one transport, its frame trace over all of them, and the clock they read. -/
structure System where
  handles : List State
  bus : List BusEvent
  clock : Nat
deriving DecidableEq, Repr

/-- The events a step added to a handle's own trace. -/
def newEvents (before after : State) : List Event := after.trace.drop before.trace.length

/-- What handle `k` gets from the system for its step: the clock, one for all handles and read-only
(R248), and its own number, by which its free draws are independent of the other handles' (R11, R71). -/
def joinAt (k c : Nat) (s : State) : State := s.setEnv { s.env with source := k, clock := c }

/-- Handle `k` becomes `t`: its new events go on the bus, whole frames (R71). -/
def System.update (y : System) (k : Nat) (s t : State) : System :=
  { handles := y.handles.set k t
    bus := y.bus ++ (newEvents s t).map (fun e => { handle := k, event := e })
    clock := t.env.clock }

/-- One step of one agent of handle `k`, as its ports give the turn; there is no other handle in it
(R29). With no handle `k` nothing moves. -/
def System.step (y : System) (k : Nat) : Host.Outcome System Fault Refusal :=
  match y.handles[k]? with
  | none => .next y
  | some s =>
    match Machine.step (joinAt k y.clock s) with
    | .next t => .next (y.update k s t)
    | .fault r => .fault r
    | .refused r => .refused r

/-- A run by a schedule: any order in which the handles take their steps (R71, R249). -/
def System.run (y : System) : List Nat → Host.Outcome System Fault Refusal
  | [] => .next y
  | k :: ks =>
    match y.step k with
    | .next z => z.run ks
    | .fault r => .fault r
    | .refused r => .refused r

/-- The part of the global trace one handle sent. -/
def System.busOf (y : System) (k : Nat) : List Event :=
  (y.bus.filter (fun b => b.handle == k)).map BusEvent.event

end Sys2Proof.Machine
end

