-- ==== Sys2Proof/Safety.lean ====
section
/-!
DEFINITION. What claims are stated in: frames the block may emit (R103), the invariant of every state
(R21 to R31, R39, R103, R171), the end of a run (R12), runs inside one operation, and the frames and
index a MOVE gives (R133, R138, R139).
-/
namespace Sys2Proof

open Machine

/-! ### Frames -/

/-- The five patterns the block may send, by name (R103, R210). -/
def sentPatterns : List Pattern :=
  [patternBits .row0, patternBits .row1, patternBits .row2, patternBits .row3, patternOff]

/-- The trace checker of R103: the frames the block may emit, for the parameter `DUTY_FULL`. -/
def Frame.emittable (dutyFull : Byte) (f : Frame) : Bool :=
  (f.b1 == opcodeByte .channelSet && f.b3 == paddingByte &&
    sentPatterns.any (fun pat => f.b2 == pat.zeroExtend 8)) ||
  (f.b1 == opcodeByte .pwmSet && f.b2 == f.b3 && (f.b2 == dutyFull || f.b2 == dutyOff)) ||
  (f.b1 == opcodeByte .freqSet && f.b3 == paddingByte) ||
  (f.b1 == opcodeByte .addrChange && f.b2.msb == false &&
    (f.b3 == markerByte .save || f.b3 == markerByte .noSave))

/-- The frame a frame command puts on the transport port; a host operation puts none itself. -/
def Instr.frame? : Instr → Option Frame
  | .construct _ _ => none
  | .setSpeed _ => none
  | .move _ _ _ => none
  | .release _ => none
  | .changeAddress _ _ _ => none
  | .setFrequency _ _ => none
  | .queryVersion => none
  | .reserved7 => none
  | .channelSet a pat => some (channelSetFrame a pat)
  | .pwmSet a d => some (pwmSetFrame a d)
  | .addrChange a n m => some (addrChangeFrame a n m)
  | .freqSet a s => some (freqSetFrame a s)

/-- The instruction is an operation of the command port (R99), not a frame command. -/
abbrev Instr.isHostOp (i : Instr) : Prop := i.frame? = none

/-- PWM off, then channels low: the release frames, in order (R134, R274). -/
def releaseFrames (a : Address) : List Frame :=
  [pwmSetFrame a dutyOff, channelSetFrame a patternOff]

/-- The index after `n` steps (R176). -/
def indexAfter (spr : Nat) (d : Direction) : Nat → Nat → Nat
  | 0, i => i
  | n + 1, i => indexAfter spr d n (advanceIndex spr d i)

/-- The pattern frames of `n` steps from index `i`: each of the index after the advance (R177). -/
def stepFrames (a : Address) (spr : Nat) (d : Direction) : Nat → Nat → List Frame
  | 0, _ => []
  | n + 1, i =>
    channelSetFrame a (patternOf (advanceIndex spr d i)) ::
      stepFrames a spr d n (advanceIndex spr d i)

/-- The frames of a whole MOVE of `n` steps (R65, R133). -/
def moveFrames (p : Params) (a : Address) (spr : Nat) (d : Direction) (n i : Nat) : List Frame :=
  pwmSetFrame a p.dutyFull :: (stepFrames a spr d n i ++ releaseFrames a)

/-! ### The duty and the channel bits last commanded (R170) -/

/-- The duty of the most recent PWM_SET in a trace, if any. -/
def lastDuty (tr : List Event) : Option Byte :=
  ((tr.filter (fun e => e.frame.b1 == opcodeByte .pwmSet)).getLast?).map (fun e => e.frame.b2)

/-- The pattern byte of the most recent CHANNEL_SET in a trace, if any. -/
def lastChannel (tr : List Event) : Option Byte :=
  ((tr.filter (fun e => e.frame.b1 == opcodeByte .channelSet)).getLast?).map (fun e => e.frame.b2)

/-! ### The invariant -/

/-- The rows of a MOVE (R173). -/
def Machine.Seq.isMove : Seq → Bool
  | .mvEnergize | .mvPoll | .mvEmit | .mvRelPwm | .mvRelCh => true
  | .idle | .rlPwm | .rlCh | .caSend | .fqSend => false

/-- The rows in which a MOVE still counts steps. -/
def Machine.Seq.isLoop : Seq → Bool
  | .mvPoll | .mvEmit => true
  | .idle | .mvEnergize | .mvRelPwm | .mvRelCh | .rlPwm | .rlCh | .caSend | .fqSend => false

/-- What holds of the handle in every state (R21 to R31, R39, R171). -/
structure HandleInv (p : Params) (h : MotorHandle) : Prop where
  /-- While not constructed the block is not busy (R21, R130). -/
  busyConstructed : h.seq ≠ .idle → h.constructed = true
  /-- Stepping exactly from a MOVE's acceptance to its last frame (R171, D25). -/
  fsmStepping : h.fsm = .stepping ↔ h.seq.isMove = true
  /-- `steps_per_revolution >= 1`, in its width (R23). -/
  sprRange : h.constructed = true → 1 ≤ h.stepsPerRevolution ∧ h.stepsPerRevolution < 2 ^ p.sprW
  /-- "0 <= current_phase_index < steps_per_revolution" (R25). -/
  indexRange : h.constructed = true → h.currentPhaseIndex < h.stepsPerRevolution
  /-- `CLK_W` bits (R27). -/
  timestampRange : h.constructed = true → h.lastStepTimestampMs < 2 ^ p.clkW
  /-- The count fits its unsigned field (R28). -/
  countRange : h.constructed = true → h.stepsRemaining ≤ 2 ^ (p.stepW - 1)
  /-- No step remains outside the loop (R28, R39). -/
  countDone : h.constructed = true → h.seq.isLoop = false → h.stepsRemaining = 0
  /-- The delay is that of a positive speed (R24, R39). -/
  delayFormula : h.stepDelayValid = true → h.constructed = true ∧
    ∃ rpm, 1 ≤ rpm ∧ rpm < 2 ^ p.rpmW ∧
      h.stepDelayMs.toNat = msPerMin / (h.stepsPerRevolution * rpm)
  /-- A MOVE runs only with a valid delay (R133). -/
  moveDelay : h.seq.isMove = true → h.stepDelayValid = true

/-- The invariant of the machine. -/
structure Inv (s : State) : Prop where
  params : s.params.Ok
  handle : HandleInv s.params s.handle
  /-- The count `MV_ENERGIZE` loads is a `STEP_W`-bit integer (R101). -/
  heldCount : s.handle.seq = .mvEnergize → s.held.stepCount.natAbs ≤ 2 ^ (s.params.stepW - 1)
  /-- While an operation is in progress no second request is presented (R130, R276). -/
  oneRequest : s.handle.seq ≠ .idle → s.cmd = none
  /-- A frame outstanding is the one its row presents (R62, R173). -/
  port : ∀ f, s.xp = .requested f → rowFrame s = some f
  /-- A completion is that of the row's frame, the last in the trace (R62, R70). -/
  completion : ∀ ok, s.xp = .answered ok →
    ∃ f, rowFrame s = some f ∧ s.trace.getLast? = some { frame := f, ok := ok }
  /-- A clock sample stands only for a poll that needs it, in the clock's width (R174, R244). -/
  sampleUse : ∀ t, s.sample = some t →
    s.handle.seq = .mvPoll ∧ s.handle.stepsRemaining ≠ 0 ∧ t < 2 ^ s.params.clkW
  /-- Only frames of R103's complement are in the trace. -/
  traceEmittable : ∀ e ∈ s.trace, e.frame.emittable s.params.dutyFull = true

/-- "No PWM, channels low", read of what was commanded (R170, C8): the most recent PWM_SET, if any,
carried duty 0, and the most recent CHANNEL_SET, if any, carried 0b0000. -/
abbrev atRest (tr : List Event) : Prop :=
  (∀ d, lastDuty tr = some d → d = dutyOff) ∧
    (∀ c, lastChannel tr = some c → c = patternOff.zeroExtend 8)

/-- The transport has answered the row's frame. -/
def Machine.State.rowAnswered (s : State) : Bool :=
  match s.xp with
  | .answered _ => true
  | .requested _ => false
  | .idle => false

/-- What the trace says was commanded last (R170, R275): at rest in Idle and until a MOVE's energize
frame is answered, full duty from then until its first release frame is answered, duty 0 from then, and
the channels low once its second release frame is answered. -/
structure CommandedInv (s : State) : Prop where
  rest : s.handle.fsm = .idle ∨ (s.handle.seq = .mvEnergize ∧ s.rowAnswered = false) → atRest s.trace
  full : s.handle.seq.isLoop = true ∨ (s.handle.seq = .mvEnergize ∧ s.rowAnswered = true) ∨
      (s.handle.seq = .mvRelPwm ∧ s.rowAnswered = false) →
    lastDuty s.trace = some s.params.dutyFull
  off : s.handle.seq = .mvRelCh ∨ (s.handle.seq = .mvRelPwm ∧ s.rowAnswered = true) →
    lastDuty s.trace = some dutyOff
  low : s.handle.seq = .mvRelCh ∧ s.rowAnswered = true →
    lastChannel s.trace = some (patternOff.zeroExtend 8)

/-! ### Runs -/

/-- `s` with its row's completion `ok` taken off the port and a failure noted, before the row's own
writes (R32). -/
def Machine.State.noted (s : State) (ok : Bool) : State :=
  { s with
    handle := { s.handle with opErr := s.handle.opErr || !ok }
    xp := .idle }

/-- The response that ends an operation without a value. -/
def Machine.State.answer (s : State) (st : Status) : State :=
  { s with responses := s.responses ++ [{ status := st, value := none }] }

/-- "A run is over when the host has no further operation to issue, the block is not busy and the last
response has been delivered" (R12). -/
abbrev Machine.State.runOver (s : State) : Prop :=
  s.env.program = [] ∧ s.cmd = none ∧ s.handle.seq = .idle ∧ s.xp = .idle

/-- A run of steps each taken from a busy state: inside one operation. -/
inductive BusyRun : State → State → Prop where
  | here (s : State) : BusyRun s s
  | more {s u t : State} (busy : s.handle.seq ≠ .idle) (one : step s = .next u)
      (rest : BusyRun u t) : BusyRun s t

/-- The block is ready for a request: not busy, nothing on the transport port (R130). -/
abbrev Machine.State.ready (s : State) : Prop := s.handle.seq = .idle ∧ s.xp = .idle

/-- The host operation `i`, presented to a ready block, runs to its end: the state in which the block is
ready for the next one. A refused operation ends at once. -/
structure OpRun (s : State) (i : Instr) (t : State) : Prop where
  ready : s.ready
  run : ∃ u, exec i s = .next u ∧ BusyRun u t
  done : t.handle.seq = .idle

/-- The handle can move: constructed, and a speed has been set (R133). -/
abbrev Machine.State.canMove (s : State) : Prop :=
  s.handle.constructed = true ∧ s.handle.stepDelayValid = true

/-- A step that accepts no CONSTRUCT and no MOVE, with no MOVE in progress. -/
structure QuietStep (s t : State) : Prop where
  noMove : s.handle.seq.isMove = false
  noConstruct : s.ready → ∀ r, s.cmd = some r → ∀ spr a,
    decodeRequest s.params r ≠ .construct spr a
  noNewMove : s.ready → ∀ r, s.cmd = some r → ∀ a n d, decodeRequest s.params r ≠ .move a n d
  one : step s = .next t

/-- A run of such steps: whatever happens between two moves other than a CONSTRUCT (R139). -/
inductive QuietRun : State → State → Prop where
  | here (s : State) : QuietRun s s
  | more {s u t : State} (one : QuietStep s u) (rest : QuietRun u t) : QuietRun s t

/-- `s` with the environment of a MOVE placed: the clock's first `m` samples at the times `T 0`, `T 1`, …,
and the transport's first `k` answers `A 0`, `A 1`, … (R181; log 5, 6). -/
def Machine.State.under (s : State) (T : Nat → Nat) (A : Nat → Option Bool) (m k : Nat) : State :=
  { s with env := { s.env with
      ticks := (List.range m).map (fun i => T i - (if i = 0 then s.env.clock else T (i - 1)))
      answers := (List.range k).map A } }

/-- The handle but for `last_step_timestamp_ms` and `op_err`, which the clock and the transport decide
(R142). -/
def Machine.MotorHandle.determined (h : MotorHandle) : MotorHandle :=
  { h with lastStepTimestampMs := 0, opErr := false }

end Sys2Proof
end

