-- ==== Sys2Proof/Certificates/Slice0/Obligations.lean ====
section
/-!
DEFINITION. The statements for the provers, from the numbered rules of spec/. A statement about a free
value holds for every value of it.
-/

open Sys2Proof Sys2Proof.Machine

/-! ### Encodings -/

/-- R90 to R101: no operand bit is lost, at any parameters. Slot widths, unused slots: log 11. -/
def Obligations.DecodeOfEncodeIsTheInstruction : Prop :=
  ∀ (p : Params) (i : Instr), p.Ok → i.wf p → decode p (encode p i) = .ok i

/-- R91, R93 to R96: three bytes are a frame command exactly when they are the frame it sends. -/
def Obligations.FrameBytesDecodeExactlyToTheirCommand : Prop :=
  ∀ (f : Frame) (i : Instr), decodeFrame f = .ok i ↔ i.frame? = some f

/-- R91: byte 1 in F[23:16], byte 2 in F[15:8], byte 3 in F[7:0]. -/
def Obligations.FrameWordHoldsTheThreeBytes : Prop :=
  (∀ f : Frame, (frameWord f).extractLsb' 16 8 = f.b1 ∧ (frameWord f).extractLsb' 8 8 = f.b2 ∧
      (frameWord f).extractLsb' 0 8 = f.b3) ∧
    (∀ f : Frame, frameOfWord f.addr (frameWord f) = f) ∧
    ∀ (a : Address) (w : BitVec 24), frameWord (frameOfWord a w) = w

/-- R98, R101: what the port presents is always in range. -/
def Obligations.PresentedRequestFitsItsPort : Prop :=
  ∀ (p : Params) (r : HostRequest), p.Ok → (decodeRequest p r).wf p

/-- R100, R101: each selector's operation and where its operands stand; unused slots, and bits of a slot
above its operand's width, are ignored (log 11). -/
def Obligations.SelectorNamesTheOperation : Prop :=
  ∀ (p : Params) (a b c : Nat),
    decodeRequest p ⟨0#3, a, b, c⟩ = .construct (a % 2 ^ p.sprW) (BitVec.ofNat 7 b) ∧
    decodeRequest p ⟨1#3, a, b, c⟩ = .setSpeed (a % 2 ^ p.rpmW) ∧
    decodeRequest p ⟨2#3, a, b, c⟩ =
      .move (BitVec.ofNat 7 a)
        (if 2 * (b % 2 ^ p.stepW) < 2 ^ p.stepW then ((b % 2 ^ p.stepW : Nat) : Int)
          else ((b % 2 ^ p.stepW : Nat) : Int) - 2 ^ p.stepW)
        (if c % 2 = 0 then .forward else .backward) ∧
    decodeRequest p ⟨3#3, a, b, c⟩ = .release (BitVec.ofNat 7 a) ∧
    decodeRequest p ⟨4#3, a, b, c⟩ =
      .changeAddress (BitVec.ofNat 7 a) (BitVec.ofNat 7 b) (c % 2 == 1) ∧
    decodeRequest p ⟨5#3, a, b, c⟩ = .setFrequency (BitVec.ofNat 7 a) (BitVec.ofNat 8 b) ∧
    decodeRequest p ⟨6#3, a, b, c⟩ = .queryVersion ∧
    decodeRequest p ⟨7#3, a, b, c⟩ = .reserved7

/-- Words of the vectors V-FRM and V-OP (95_test_vectors.md) decode to what they stand for. -/
def Obligations.VectorWordsDecode : Prop :=
  decodeFrame (frameOfWord 0x28#7 0xAA0600#24) = .ok (.channelSet 0x28#7 0b0110#4) ∧
  decodeFrame (frameOfWord 0x28#7 0x828080#24) = .ok (.pwmSet 0x28#7 0x80#8) ∧
  decodeFrame (frameOfWord 0x11#7 0x837F53#24) = .ok (.addrChange 0x11#7 0x7F#7 0x53#8) ∧
  decodeFrame (frameOfWord 0x28#7 0x840200#24) = .ok (.freqSet 0x28#7 0x02#8) ∧
  decodeRequest Params.default ⟨2#3, 0x30, 0xFFFFFFFE, 0⟩ = .move 0x30#7 (-2) .forward

/-- R103: bytes of none of the four formats are rejected, each fault by its name. -/
def Obligations.ForeignFramesAreRejectedByName : Prop :=
  ∀ f : Frame,
    (f.b1 ≠ 0xAA#8 → f.b1 ≠ 0x82#8 → f.b1 ≠ 0x83#8 → f.b1 ≠ 0x84#8 →
      decodeFrame f = .error .unknownOpcode) ∧
    (f.b1 = 0xAA#8 → 16 ≤ f.b2.toNat → decodeFrame f = .error .channelUpperNibble) ∧
    (f.b1 = 0xAA#8 → f.b2.toNat < 16 → f.b3 ≠ 0x00#8 → decodeFrame f = .error .channelPadding) ∧
    (f.b1 = 0x82#8 → f.b2 ≠ f.b3 → decodeFrame f = .error .dutyBytesDiffer) ∧
    (f.b1 = 0x83#8 → 128 ≤ f.b2.toNat → decodeFrame f = .error .addressBit7) ∧
    (f.b1 = 0x84#8 → f.b3 ≠ 0x00#8 → decodeFrame f = .error .freqPadding)

/-! ### What a step runs -/

/-- R130, R173: a ready block runs the request on the command port, decoded, and nothing stands around it
but that the request is taken off the port (log 7, 8). -/
def Obligations.StepRunsThePresentedRequest : Prop :=
  ∀ (s : State) (r : HostRequest), s.ready → s.cmd = some r →
    step s = exec (decodeRequest s.params r) { s with cmd := none }

/-- R61, R173: a frame outstanding on the transport port is run as the frame command its bytes decode to,
and nothing stands around it; a SendFrame row presents its frame in a step before, and takes the
completion in a step after (log 8, 9). -/
def Obligations.StepRunsTheFrameCommand : Prop :=
  (∀ (s : State) (f : Frame) (i : Instr), s.xp = .requested f → decodeFrame f = .ok i →
      step s = exec i s) ∧
    (∀ (s : State) (f : Frame), s.xp = .idle → rowFrame s = some f →
      step s = .next { s with xp := .requested f }) ∧
    ∀ (s : State) (ok : Bool), s.xp = .answered ok → step s = .next (takeCompletion ok s)

/-- R11: each agent has its own step and writes only what is its own: the host its list and the command
port; the transport its port, the trace and its answers; the clock its time and the sample, which is its
time modulo `2^CLK_W` and never goes back (R245). The sequencer draws no answer and reads no clock. Whose
turn it is follows from the ports (log 8). -/
def Obligations.AgentsWriteOnlyTheirOwn : Prop :=
  ∀ s t : State, step s = .next t →
    (turn s = .host →
      t = { s with cmd := t.cmd, env := { s.env with program := t.env.program } }) ∧
    (turn s = .transport →
      t = { s with
        xp := t.xp
        trace := t.trace
        env := { s.env with answers := t.env.answers, answerDraws := t.env.answerDraws } }) ∧
    (turn s = .clock →
      t = { s with
        sample := t.sample
        env := { s.env with
          clock := t.env.clock, ticks := t.env.ticks, tickDraws := t.env.tickDraws } } ∧
      s.env.clock ≤ t.env.clock ∧ t.sample = some (t.env.clock % 2 ^ s.params.clkW)) ∧
    (turn s = .sequencer →
      t.trace = s.trace ∧ t.env = { s.env with freeDraws := t.env.freeDraws })

/-- R130, R276: while the block is not ready no request is presented, taken, queued or dropped; a ready
block with nothing on its command port gets the host's next request, if any, and a request on the port is
taken off it. -/
def Obligations.RequestTakenOnlyWhenReady : Prop :=
  ∀ s t : State, step s = .next t →
    (¬ s.ready → t.cmd = s.cmd ∧ t.env.program = s.env.program) ∧
    (s.ready → s.cmd = none →
      t.cmd = s.env.program.head? ∧ t.env.program = s.env.program.tail) ∧
    (s.ready → s.cmd ≠ none → t.cmd = none ∧ t.env.program = s.env.program)

/-! ### The host operations in the IDLE row -/

/-- R131, with R130's clearing of `op_err` (log 12). `delay` and `d` are the values R38 leaves unspecified: the
statement holds whatever they are (log 2). -/
def Obligations.ConstructInitialisesTheHandle : Prop :=
  (∀ (p : Params) (r : HostRequest), r.opSel = 0#3 → r.a < 2 ^ p.sprW → r.b < 2 ^ 7 →
      decodeRequest p r = .construct r.a (BitVec.ofNat 7 r.b)) ∧
  ∀ (s : State) (spr : Nat) (a : Address), s.handle.seq = .idle →
    (spr = 0 → exec (.construct spr a) s = .next (s.answer .configError)) ∧
    (spr ≠ 0 → ∃ (t : State) (delay : Delay) (d : Direction),
      exec (.construct spr a) s = .next t ∧
      t.handle =
        { constructed := true
          deviceAddress := a
          stepsPerRevolution := spr
          stepDelayMs := delay
          stepDelayValid := false
          currentPhaseIndex := 0
          direction := d
          lastStepTimestampMs := 0
          stepsRemaining := 0
          fsm := .idle
          seq := .idle
          opErr := false } ∧
      t.responses = s.responses ++ [{ status := .ok, value := none }] ∧
      t.trace = s.trace ∧ t.xp = s.xp ∧ t.held = s.held)

/-- R132, R184 (a), (b), with R130's clearing of `op_err` (log 12); nothing else changes. -/
def Obligations.SetSpeedSetsTheTruncatedDelay : Prop :=
  (∀ (p : Params) (r : HostRequest), r.opSel = 1#3 → r.a < 2 ^ p.rpmW →
      decodeRequest p r = .setSpeed r.a) ∧
  ∀ (s : State) (rpm : Nat), s.handle.seq = .idle → s.handle.constructed = true →
    (rpm = 0 → exec (.setSpeed rpm) s = .next (s.answer .configError)) ∧
    (1 ≤ rpm → 1 ≤ s.handle.stepsPerRevolution → ∃ delay : Delay,
      delay.toNat = 60000 / (s.handle.stepsPerRevolution * rpm) ∧
      delay.toNat = 60000 / s.handle.stepsPerRevolution / rpm ∧
      (60000 < s.handle.stepsPerRevolution * rpm → delay = 0#16) ∧
      exec (.setSpeed rpm) s = .next
        { s with
          handle := { s.handle with stepDelayMs := delay, stepDelayValid := true, opErr := false }
          responses := s.responses ++ [{ status := .ok, value := none }] })

/-- R133 step 1 and R173's IDLE row for MOVE: what acceptance writes, and that it writes nothing else
(no timestamp, no index, no frame). -/
def Obligations.MoveEntersStepping : Prop :=
  ∀ (s : State) (a : Address) (n : Int) (d : Direction),
    s.handle.seq = .idle → s.handle.constructed = true →
    (s.handle.stepDelayValid = false → exec (.move a n d) s = .next (s.answer .configError)) ∧
    (s.handle.stepDelayValid = true → exec (.move a n d) s = .next
      { s with
        handle := { s.handle with
          deviceAddress := a
          direction := d
          fsm := .stepping
          seq := .mvEnergize
          opErr := false }
        held := { s.held with stepCount := n } })

/-- R134 to R136 and R173's IDLE row: what acceptance of RELEASE, CHANGE_ADDRESS and SET_FREQUENCY
writes; only RELEASE writes `device_address` there. -/
def Obligations.FrameOperationsAreAccepted : Prop :=
  ∀ s : State, s.handle.seq = .idle → s.handle.constructed = true →
    (∀ a : Address, exec (.release a) s = .next
      { s with handle := { s.handle with deviceAddress := a, seq := .rlPwm, opErr := false } }) ∧
    (∀ (c n : Address) (persist : Bool), exec (.changeAddress c n persist) s = .next
      { s with
        handle := { s.handle with seq := .caSend, opErr := false }
        held := { s.held with currentAddress := c, newAddress := n, persist := persist } }) ∧
    (∀ (a : Address) (v : Byte), exec (.setFrequency a v) s = .next
      { s with
        handle := { s.handle with seq := .fqSend, opErr := false }
        held := { s.held with freqAddress := a, prescaler := v } })

/-- R137 with R130's clearing of `op_err` at acceptance (log 12): one constant, whether or not the
handle is constructed. -/
def Obligations.QueryVersionRespondsTheConstant : Prop :=
  ∃ v : BitVec Config.verW, ∀ s : State, s.handle.seq = .idle → exec .queryVersion s = .next
    { s with
      handle := { s.handle with opErr := false }
      responses := s.responses ++ [{ status := .ok, value := some v }] }

/-- R104, R234. -/
def Obligations.IllegalOpChangesNothing : Prop :=
  (∀ (p : Params) (r : HostRequest), r.opSel = 7#3 → decodeRequest p r = .reserved7) ∧
  ∀ s : State, s.handle.seq = .idle →
    exec .reserved7 s = .next (s.answer .illegalOp) ∧
    (s.handle.constructed = false →
      (∀ rpm, exec (.setSpeed rpm) s = .next (s.answer .illegalOp)) ∧
      (∀ a n d, exec (.move a n d) s = .next (s.answer .illegalOp)) ∧
      (∀ a, exec (.release a) s = .next (s.answer .illegalOp)) ∧
      (∀ c n persist, exec (.changeAddress c n persist) s = .next (s.answer .illegalOp)) ∧
      (∀ a v, exec (.setFrequency a v) s = .next (s.answer .illegalOp)))

/-- R231: exactly the three causes, and a refused operation has no effect but its response. -/
def Obligations.ConfigErrorHasThreeCausesAndNoEffect : Prop :=
  ∀ (i : Instr) (s : State), i.isHostOp → s.handle.seq = .idle →
    ((∃ (t : State) (v : Option (BitVec Config.verW)), exec i s = .next t ∧
        t.responses = s.responses ++ [{ status := .configError, value := v }]) ↔
      ((∃ a, i = .construct 0 a) ∨
        (s.handle.constructed = true ∧
          (i = .setSpeed 0 ∨
            (s.handle.stepDelayValid = false ∧ ∃ a n d, i = .move a n d))))) ∧
    (∀ (t : State) (v : Option (BitVec Config.verW)), exec i s = .next t →
      t.responses = s.responses ++ [{ status := .configError, value := v }] →
        t = s.answer .configError)

/-- R130, D26: a host operation has no meaning while the block is busy (log 13). -/
def Obligations.BusyBlockTakesNoOperation : Prop :=
  ∀ (i : Instr) (s : State), i.isHostOp → s.handle.seq ≠ .idle → exec i s = .refused .portNotReady

/-- What a host operation leaves alone in the step that accepts or refuses it: the frame trace, the three
ports, the parameters, the binding, the clock, the host's list and the placed answers
(R65, R173). The handle's fields are in the statements of each operation. -/
def Obligations.HostOperationsFrame : Prop :=
  ∀ (i : Instr) (s t : State), i.isHostOp → exec i s = .next t →
    t.trace = s.trace ∧ t.xp = s.xp ∧ t.cmd = s.cmd ∧ t.sample = s.sample ∧
      t.params = s.params ∧ t.transport = s.transport ∧
      t.env = { s.env with freeDraws := t.env.freeDraws } ∧
      (t.env.freeDraws ≠ s.env.freeDraws → ∃ spr a, i = .construct spr a)

/-! ### The frame commands -/

/-- R203 to R206: each frame command sends its three bytes to its address, unchanged, once; the
transport's answer is the completion and the event's last component. -/
def Obligations.FrameCommandsSendTheirBytes : Prop :=
  ∀ (s : State) (ok : Bool) (rest : List (Option Bool)), s.env.answers = some ok :: rest →
    (∀ (a : Address) (pat : Pattern), exec (.channelSet a pat) s = .next
      { s with
        xp := .answered ok
        trace := s.trace ++
          [{ frame := { addr := a, b1 := 0xAA#8, b2 := pat.zeroExtend 8, b3 := 0x00#8 }, ok := ok }]
        env := { s.env with answers := rest } }) ∧
    (∀ (a : Address) (duty : Byte), exec (.pwmSet a duty) s = .next
      { s with
        xp := .answered ok
        trace := s.trace ++
          [{ frame := { addr := a, b1 := 0x82#8, b2 := duty, b3 := duty }, ok := ok }]
        env := { s.env with answers := rest } }) ∧
    (∀ (a n : Address) (m : Byte), exec (.addrChange a n m) s = .next
      { s with
        xp := .answered ok
        trace := s.trace ++
          [{ frame := { addr := a, b1 := 0x83#8, b2 := n.zeroExtend 8, b3 := m }, ok := ok }]
        env := { s.env with answers := rest } }) ∧
    (∀ (a : Address) (v : Byte), exec (.freqSet a v) s = .next
      { s with
        xp := .answered ok
        trace := s.trace ++
          [{ frame := { addr := a, b1 := 0x84#8, b2 := v, b3 := 0x00#8 }, ok := ok }]
        env := { s.env with answers := rest } })

/-- R61, R254: while the transport has not answered, the frame stays outstanding and nothing else
happens: the step is the wait. -/
def Obligations.UnansweredFrameStaysOutstanding : Prop :=
  ∀ (s : State) (i : Instr) (f : Frame) (rest : List (Option Bool)),
    i.frame? = some f → s.env.answers = none :: rest →
    exec i s = .next { s with xp := .requested f, env := { s.env with answers := rest } } ∧
    (s.xp = .requested f →
      step s = .next { s with env := { s.env with answers := rest } })

/-- R207, R208: a frame command writes no field of the handle and reads nothing: whatever the answer,
only the port, the trace (by this frame alone) and the placed answers and their counter change. -/
def Obligations.FrameCommandsFrame : Prop :=
  ∀ (i : Instr) (f : Frame) (s t : State), i.frame? = some f → exec i s = .next t →
    t.handle = s.handle ∧ t.held = s.held ∧ t.responses = s.responses ∧ t.cmd = s.cmd ∧
      t.sample = s.sample ∧ t.params = s.params ∧ t.transport = s.transport ∧
      t.env = { s.env with answers := t.env.answers, answerDraws := t.env.answerDraws } ∧
      ((t.xp = .requested f ∧ t.trace = s.trace) ∨
        ∃ ok, t.xp = .answered ok ∧ t.trace = s.trace ++ [{ frame := f, ok := ok }])

/-! ### The rows of the micro-step table -/

/-- R173, rows MV_ENERGIZE, MV_EMIT, MV_REL_PWM, MV_REL_CH: the frame each presents, to the stored
address, and what each writes when it is answered `ok`. -/
def Obligations.MoveRowsSendAndWrite : Prop :=
  ∀ s : State,
    (s.xp = .idle →
      (s.handle.seq = .mvEnergize → step s = .next (s.setXp (.requested
        ⟨s.handle.deviceAddress, 0x82#8, s.params.dutyFull, s.params.dutyFull⟩))) ∧
      (s.handle.seq = .mvEmit → step s = .next (s.setXp (.requested
        ⟨s.handle.deviceAddress, 0xAA#8,
          (phasePattern (BitVec.ofNat 2 s.handle.currentPhaseIndex)).zeroExtend 8, 0x00#8⟩))) ∧
      (s.handle.seq = .mvRelPwm → step s = .next (s.setXp (.requested
        ⟨s.handle.deviceAddress, 0x82#8, 0x00#8, 0x00#8⟩))) ∧
      (s.handle.seq = .mvRelCh → step s = .next (s.setXp (.requested
        ⟨s.handle.deviceAddress, 0xAA#8, 0x00#8, 0x00#8⟩)))) ∧
    ∀ ok : Bool, s.xp = .answered ok →
      (s.handle.seq = .mvEnergize → step s = .next
        (let u := s.noted ok
         { u with handle := { u.handle with
            stepsRemaining := s.held.stepCount.natAbs, seq := .mvPoll } })) ∧
      (s.handle.seq = .mvEmit → step s = .next
        (let u := s.noted ok
         { u with handle := { u.handle with seq := .mvPoll } })) ∧
      (s.handle.seq = .mvRelPwm → step s = .next
        (let u := s.noted ok
         { u with handle := { u.handle with seq := .mvRelCh } })) ∧
      (s.handle.seq = .mvRelCh → step s = .next
        (let u := s.noted ok
         ({ u with handle := { u.handle with fsm := .idle, seq := .idle } } : State).answer
          (if s.handle.opErr || !ok then .transportError else .ok)))

/-- R173, rows RL_PWM, RL_CH, CA_SEND, FQ_SEND: the frame each presents and what each writes when it is
answered `ok`; CA_SEND addresses the operand and commits the new address whatever the answer. The marker
bytes are R97's, from general knowledge (log 15). -/
def Obligations.StandaloneRowsSendAndWrite : Prop :=
  ∀ s : State,
    (s.xp = .idle →
      (s.handle.seq = .rlPwm → step s = .next (s.setXp (.requested
        ⟨s.handle.deviceAddress, 0x82#8, 0x00#8, 0x00#8⟩))) ∧
      (s.handle.seq = .rlCh → step s = .next (s.setXp (.requested
        ⟨s.handle.deviceAddress, 0xAA#8, 0x00#8, 0x00#8⟩))) ∧
      (s.handle.seq = .caSend → step s = .next (s.setXp (.requested
        ⟨s.held.currentAddress, 0x83#8, s.held.newAddress.zeroExtend 8,
          if s.held.persist then 0x53#8 else 0x4E#8⟩))) ∧
      (s.handle.seq = .fqSend → step s = .next (s.setXp (.requested
        ⟨s.held.freqAddress, 0x84#8, s.held.prescaler, 0x00#8⟩)))) ∧
    ∀ ok : Bool, s.xp = .answered ok →
      (s.handle.seq = .rlPwm → step s = .next
        (let u := s.noted ok
         { u with handle := { u.handle with seq := .rlCh } })) ∧
      (s.handle.seq = .rlCh → step s = .next
        (let u := s.noted ok
         ({ u with handle := { u.handle with seq := .idle } } : State).answer
          (if s.handle.opErr || !ok then .transportError else .ok))) ∧
      (s.handle.seq = .caSend → step s = .next
        (let u := s.noted ok
         ({ u with handle := { u.handle with
            deviceAddress := s.held.newAddress, seq := .idle } } : State).answer
          (if s.handle.opErr || !ok then .transportError else .ok))) ∧
      (s.handle.seq = .fqSend → step s = .next
        (let u := s.noted ok
         ({ u with handle := { u.handle with seq := .idle } } : State).answer
          (if s.handle.opErr || !ok then .transportError else .ok)))

/-- R173's row MV_POLL with R174, R175, R178, R244: no clock read when no step remains; otherwise the clock
gives one sample, whether its advance is placed or free, and the poll reads that sample: closed exactly
when the elapsed time is less than the delay, and then nothing changes; open otherwise, and then that
sample is recorded, the index advanced and the count lowered. -/
def Obligations.PollRowGatesOneStep : Prop :=
  ∀ s : State, s.xp = .idle → s.handle.seq = .mvPoll →
    (s.handle.stepsRemaining = 0 →
      step s = .next { s with handle := { s.handle with seq := .mvRelPwm } }) ∧
    (s.handle.stepsRemaining ≠ 0 → s.sample = none →
      step s = .next
        { s with
          sample := some (clockSample s.params (tick s.env))
          env := tick s.env }) ∧
    ∀ t : Nat, s.handle.stepsRemaining ≠ 0 → s.sample = some t →
      (((t : Int) - (s.handle.lastStepTimestampMs : Int)) % 2 ^ s.params.clkW <
          (s.handle.stepDelayMs.toNat : Int) →
        step s = .next { s with sample := none }) ∧
      ((s.handle.stepDelayMs.toNat : Int) ≤
          ((t : Int) - (s.handle.lastStepTimestampMs : Int)) % 2 ^ s.params.clkW →
        step s = .next
          { s with
            handle := { s.handle with
              lastStepTimestampMs := t
              currentPhaseIndex := advanceIndex s.handle.stepsPerRevolution s.handle.direction
                s.handle.currentPhaseIndex
              stepsRemaining := s.handle.stepsRemaining - 1
              seq := .mvEmit }
            sample := none })

/-! ### Arithmetic and tables -/

/-- R175: modular subtraction gives the true elapsed time of a clock presented modulo `2^CLK_W`, if
fewer than `2^CLK_W` milliseconds passed; it is in range, equals the plain difference when the clock
has not wrapped, and every delay can be compared. -/
def Obligations.ElapsedIsWrapSafe : Prop :=
  ∀ w : Nat, 16 ≤ w →
    (∀ t last : Nat, (elapsedMs w t last : Int) = ((t : Int) - (last : Int)) % 2 ^ w) ∧
    (∀ t last : Nat, elapsedMs w t last < 2 ^ w) ∧
    (∀ now then_ : Nat, then_ ≤ now → now - then_ < 2 ^ w →
      elapsedMs w (now % 2 ^ w) (then_ % 2 ^ w) = now - then_) ∧
    ∀ d : Delay, d.toNat < 2 ^ w

/-- R176: compare-and-reset is `(i + 1) mod spr` and `(i - 1) mod spr`, and never leaves `[0, spr)`. -/
def Obligations.AdvanceIsModular : Prop :=
  ∀ spr i : Nat, i < spr →
    (advanceIndex spr .forward i : Int) = ((i : Int) + 1) % (spr : Int) ∧
    (advanceIndex spr .backward i : Int) = ((i : Int) - 1) % (spr : Int) ∧
    (i = spr - 1 → advanceIndex spr .forward i = 0) ∧
    (i = 0 → advanceIndex spr .backward i = spr - 1) ∧
    ∀ d, advanceIndex spr d i < spr

/-- R201: the table, and by R177 and R184 (e) the pattern of a step index. -/
def Obligations.PhaseTableIsTheSpecs : Prop :=
  phasePattern 0#2 = 0b1010#4 ∧ phasePattern 1#2 = 0b0110#4 ∧ phasePattern 2#2 = 0b0101#4 ∧
    phasePattern 3#2 = 0b1001#4 ∧ (∀ i, phasePattern i ≠ 0b0000#4) ∧ ∀ i : Nat, patternOf i = phasePattern (BitVec.ofNat 2 (i % 4))

/-- R202: each step changes exactly one pair of bits, by complement; no pair is ever 11 or 00. -/
def Obligations.NeighbourPatternsReverseOneWinding : Prop :=
  (∀ i : BitVec 2, phasePattern i ^^^ phasePattern (i + 1#2) =
      if i.toNat % 2 = 0 then 0b1100#4 else 0b0011#4) ∧
    ∀ i : BitVec 2,
      ((phasePattern i).extractLsb' 2 2 = 0b10#2 ∨ (phasePattern i).extractLsb' 2 2 = 0b01#2) ∧
      ((phasePattern i).extractLsb' 0 2 = 0b10#2 ∨ (phasePattern i).extractLsb' 0 2 = 0b01#2)

/-- R180: with delay 0 every poll steps, whatever sample the clock gives. -/
def Obligations.ZeroDelayStepsAtEveryPoll : Prop :=
  (∀ spr rpm : Nat, 60000 < spr * rpm → stepDelay spr rpm = 0#16) ∧
  ∀ (s : State) (sample : Nat), s.xp = .idle → s.handle.seq = .mvPoll →
    s.handle.stepsRemaining ≠ 0 → s.sample = some sample → s.handle.stepDelayMs = 0#16 →
    ∃ t, step s = .next t ∧ t.handle.seq = .mvEmit ∧
      t.handle.lastStepTimestampMs = sample ∧
      t.handle.stepsRemaining + 1 = s.handle.stepsRemaining ∧
      t.handle.currentPhaseIndex = advanceIndex s.handle.stepsPerRevolution s.handle.direction
        s.handle.currentPhaseIndex

/-! ### Which steps write a field -/

/-- R21, R23: `steps_per_revolution` is written only by a CONSTRUCT that succeeds, and `constructed`
never goes back to 0 and becomes 1 only so. -/
def Obligations.OnlyConstructWritesStepsPerRevolution : Prop :=
  ∀ s t : State, step s = .next t →
    (s.handle.constructed = true → t.handle.constructed = true) ∧
    (t.handle.stepsPerRevolution ≠ s.handle.stepsPerRevolution ∨
        t.handle.constructed ≠ s.handle.constructed →
      s.ready ∧ ∃ r spr a, s.cmd = some r ∧
        decodeRequest s.params r = .construct spr a ∧ spr ≠ 0 ∧
        t.handle.stepsPerRevolution = spr ∧ t.handle.constructed = true)

/-- R22: `device_address` is written by CONSTRUCT, MOVE, RELEASE (from the operand, at acceptance) and
by the row CA_SEND, and by nothing else. -/
def Obligations.DeviceAddressHasFourWriters : Prop :=
  ∀ s t : State, step s = .next t → t.handle.deviceAddress ≠ s.handle.deviceAddress →
    (s.ready ∧ ∃ r, s.cmd = some r ∧
      ((∃ spr, decodeRequest s.params r = .construct spr t.handle.deviceAddress) ∨
        (∃ n d, decodeRequest s.params r = .move t.handle.deviceAddress n d) ∨
        decodeRequest s.params r = .release t.handle.deviceAddress)) ∨
    (s.handle.seq = .caSend ∧ t.handle.deviceAddress = s.held.newAddress)

/-- R24: a delay that counts (`step_delay_valid` = 1) is one that a successful SET_SPEED wrote; no other
step changes it. What CONSTRUCT leaves in `step_delay_ms` is invalid (log 2). -/
def Obligations.OnlySetSpeedWritesAValidDelay : Prop :=
  ∀ s t : State, step s = .next t → t.handle.stepDelayValid = true →
    (s.handle.stepDelayValid = true ∧ t.handle.stepDelayMs = s.handle.stepDelayMs) ∨
    (s.ready ∧ ∃ r rpm, s.cmd = some r ∧
      decodeRequest s.params r = .setSpeed rpm ∧ rpm ≠ 0 ∧ s.handle.constructed = true ∧
      t.handle.stepDelayMs = stepDelay s.handle.stepsPerRevolution rpm)

/-- R25, R27: the index and the timestamp are written only by CONSTRUCT (with 0) and by the step advance;
and R26: the direction only by CONSTRUCT (unspecified) and MOVE. -/
def Obligations.IndexTimestampAndDirectionWriters : Prop :=
  ∀ s t : State, step s = .next t →
    ((t.handle.currentPhaseIndex ≠ s.handle.currentPhaseIndex ∨
        t.handle.lastStepTimestampMs ≠ s.handle.lastStepTimestampMs) →
      (s.ready ∧ (∃ r spr a, s.cmd = some r ∧
          decodeRequest s.params r = .construct spr a) ∧
        t.handle.currentPhaseIndex = 0 ∧ t.handle.lastStepTimestampMs = 0) ∨
      (s.handle.seq = .mvPoll ∧ s.handle.stepsRemaining ≠ 0 ∧ t.handle.seq = .mvEmit ∧
        s.sample = some t.handle.lastStepTimestampMs ∧
        t.handle.currentPhaseIndex = advanceIndex s.handle.stepsPerRevolution s.handle.direction
          s.handle.currentPhaseIndex ∧
        t.handle.stepsRemaining + 1 = s.handle.stepsRemaining)) ∧
    (t.handle.direction ≠ s.handle.direction →
      s.ready ∧ ∃ r, s.cmd = some r ∧
        ((∃ spr a, decodeRequest s.params r = .construct spr a) ∨
          ∃ a n, decodeRequest s.params r = .move a n t.handle.direction))

/-- R171: the two arcs of `fsm`, and no other. -/
def Obligations.FsmHasTwoArcs : Prop :=
  ∀ s t : State, Inv s → step s = .next t →
    (s.handle.fsm = .idle → t.handle.fsm = .stepping →
      s.ready ∧ s.canMove ∧ t.handle.seq = .mvEnergize ∧
      ∃ r a n d, s.cmd = some r ∧ decodeRequest s.params r = .move a n d) ∧
    (s.handle.fsm = .stepping → t.handle.fsm = .idle →
      s.handle.seq = .mvRelCh ∧ t.handle.seq = .idle ∧
      ∃ ok, s.xp = .answered ok ∧ t.trace = s.trace ∧
        s.trace.getLast? = some { frame := channelSetFrame s.handle.deviceAddress 0b0000#4, ok := ok })

/-! ### Invariants of every step -/

/-- The invariant holds after reset. It uses no value that R38 leaves open. -/
def Obligations.InvariantHoldsAtReset : Prop := Inv State.reset ∧ CommandedInv State.reset

/-- R21 to R31, R39, R103, R141: every step keeps the invariant. -/
def Obligations.EveryStepKeepsTheInvariant : Prop :=
  ∀ s t : State, Inv s → step s = .next t → Inv t

/-- R254, R238: from every state that meets the invariant a step gives a next state: no trap, no
fault, and no refusal. -/
def Obligations.NoStepTrapsOrRefuses : Prop := ∀ s : State, Inv s → ∃ t, step s = .next t

/-- R170, R275: what was commanded last follows `fsm`. -/
def Obligations.EveryStepKeepsWhatWasCommanded : Prop :=
  ∀ s t : State, Inv s → CommandedInv s → step s = .next t → CommandedInv t

/-- R70, R64: the trace only grows, by at most one whole frame a step: the one outstanding on the port,
when it is answered. -/
def Obligations.TraceGrowsByTheRowsFrame : Prop :=
  ∀ s t : State, step s = .next t →
    t.trace = s.trace ∨
      ∃ f ok, s.xp = .requested f ∧ t.xp = .answered ok ∧
        t.trace = s.trace ++ [{ frame := f, ok := ok }]

/-- R130, R233, R237: a step delivers at most one response, and only when it leaves the block not busy;
RANGE_ERROR is never produced; only OK carries a value. -/
def Obligations.OneResponseEndsAnOperation : Prop :=
  ∀ s t : State, step s = .next t →
    t.responses = s.responses ∨
      ∃ r, t.responses = s.responses ++ [r] ∧ t.handle.seq = .idle ∧
        r.status ≠ .rangeError ∧ (r.value ≠ none → r.status = .ok ∧ r.value = some Config.version)

/-- R37, R245: no step writes the parameters or the transport binding, and the clock never goes back. -/
def Obligations.ParametersAndBindingAreConstant : Prop :=
  ∀ s t : State, step s = .next t →
    t.params = s.params ∧ t.transport = s.transport ∧ s.env.clock ≤ t.env.clock

/-! ### Whole operations -/

/-- R133, R65, R142: a MOVE that runs to its end has sent exactly the energize frame, one pattern frame
per step in step order and the two release frames, all to its address, whatever the transport and the
clock did, and leaves the handle as stated. -/
def Obligations.MoveSendsItsFramesAndAdvances : Prop :=
  ∀ (s t : State) (a : Address) (n : Int) (d : Direction), s.canMove →
    OpRun s (.move a n d) t →
    ∃ new : List Event,
      t.trace = s.trace ++ new ∧
      new.map Event.frame = moveFrames s.params a s.handle.stepsPerRevolution d n.natAbs
        s.handle.currentPhaseIndex ∧
      t.responses = s.responses ++ [{
        status := if new.all Event.ok then .ok else .transportError, value := none }] ∧
      t.handle = { s.handle with
        deviceAddress := a
        direction := d
        currentPhaseIndex := indexAfter s.handle.stepsPerRevolution d n.natAbs
          s.handle.currentPhaseIndex
        lastStepTimestampMs := t.handle.lastStepTimestampMs
        stepsRemaining := 0
        fsm := .idle
        opErr := !new.all Event.ok } ∧
      (n = 0 → t.handle.lastStepTimestampMs = s.handle.lastStepTimestampMs ∧
        t.env.clock = s.env.clock)

/-- R138, R65: a MOVE sends `|step_count| + 3` frames, of which exactly `|step_count|` are CHANNEL_SET
frames with a non-zero pattern. -/
def Obligations.MoveFrameCounts : Prop :=
  ∀ (p : Params) (a : Address) (spr : Nat) (d : Direction) (n i : Nat),
    (moveFrames p a spr d n i).length = n + 3 ∧
    ((moveFrames p a spr d n i).filter
      (fun f => f.b1 == 0xAA#8 && f.b2 != 0x00#8)).length = n ∧
    ∀ f ∈ moveFrames p a spr d n i, f.addr = a

/-- R139, R184 (d): `n` forward advances take index i to `(i + n) mod spr`, `n` backward ones to
`(i - n) mod spr`, and the index stays in range. -/
def Obligations.IndexAfterStepsIsModular : Prop :=
  ∀ spr i n : Nat, i < spr →
    (indexAfter spr .forward n i : Int) = ((i : Int) + n) % (spr : Int) ∧
    (indexAfter spr .backward n i : Int) = ((i : Int) - n) % (spr : Int) ∧
    ∀ d, indexAfter spr d n i < spr

/-- R139: the round trip, for every count of either sign, whatever the transport answers and whatever
happens between the two moves other than a CONSTRUCT. That another MOVE between them is excluded too is
the model's reading of "followed by": the rule's words except a CONSTRUCT only, and another MOVE of a
count that is no multiple of the revolution would move the index. -/
def Obligations.RoundTripReturnsTheIndex : Prop :=
  ∀ (s t t' u : State) (a b : Address) (n : Int), s.canMove →
    1 ≤ s.handle.stepsPerRevolution →
    s.handle.currentPhaseIndex < s.handle.stepsPerRevolution →
    OpRun s (.move a n .forward) t → QuietRun t t' → OpRun t' (.move b n .backward) u →
    u.handle.currentPhaseIndex = s.handle.currentPhaseIndex

/-- R140, R274: at the moment a MOVE or RELEASE delivers its response the last two frames are PWM off,
then channels low, to its address. -/
def Obligations.DeenergizedAtRest : Prop :=
  ∀ (s t : State) (a : Address) (i : Instr),
    ((∃ n d, i = .move a n d) ∧ s.canMove) ∨ (i = .release a ∧ s.handle.constructed = true) →
    OpRun s i t →
    ∃ (pre : List Event) (o1 o2 : Bool), t.trace = pre ++
      [{ frame := { addr := a, b1 := 0x82#8, b2 := 0x00#8, b3 := 0x00#8 }, ok := o1 },
        { frame := { addr := a, b1 := 0xAA#8, b2 := 0x00#8, b3 := 0x00#8 }, ok := o2 }]

/-- R134: RELEASE sends exactly its two frames, the second whatever became of the first, and touches
nothing else of the handle but `device_address` and `op_err`. -/
def Obligations.ReleaseSendsExactlyTwoFrames : Prop :=
  (∀ (p : Params) (r : HostRequest), r.opSel = 3#3 → r.a < 2 ^ 7 →
      decodeRequest p r = .release (BitVec.ofNat 7 r.a)) ∧
  ∀ (s t : State) (a : Address), s.handle.constructed = true → OpRun s (.release a) t →
    ∃ o1 o2 : Bool,
      t.trace = s.trace ++
        [{ frame := { addr := a, b1 := 0x82#8, b2 := 0x00#8, b3 := 0x00#8 }, ok := o1 },
          { frame := { addr := a, b1 := 0xAA#8, b2 := 0x00#8, b3 := 0x00#8 }, ok := o2 }] ∧
      t.handle = { s.handle with deviceAddress := a, opErr := !(o1 && o2) } ∧
      t.responses = s.responses ++
        [{ status := if o1 && o2 then .ok else .transportError, value := none }]

/-- R135, R240: CHANGE_ADDRESS sends one frame, to the operand, and commits the new address whatever the
transport answered. The marker bytes are R97's, from general knowledge (log 15). -/
def Obligations.ChangeAddressCommitsRegardless : Prop :=
  (∀ (p : Params) (r : HostRequest), r.opSel = 4#3 → r.a < 2 ^ 7 → r.b < 2 ^ 7 → r.c < 2 →
      decodeRequest p r =
        .changeAddress (BitVec.ofNat 7 r.a) (BitVec.ofNat 7 r.b) (decide (r.c = 1))) ∧
  ∀ (s t : State) (c n : Address) (persist : Bool), s.handle.constructed = true →
    OpRun s (.changeAddress c n persist) t →
    ∃ ok : Bool,
      t.trace = s.trace ++ [{ frame :=
        { addr := c, b1 := 0x83#8, b2 := n.zeroExtend 8,
          b3 := if persist then 0x53#8 else 0x4E#8 }, ok := ok }] ∧
      t.handle = { s.handle with deviceAddress := n, opErr := !ok } ∧
      t.responses = s.responses ++
        [{ status := if ok then .ok else .transportError, value := none }]

/-- R136: SET_FREQUENCY sends one frame, to its operand, and writes no field of the handle but
`op_err`. -/
def Obligations.SetFrequencyPassesThrough : Prop :=
  (∀ (p : Params) (r : HostRequest), r.opSel = 5#3 → r.a < 2 ^ 7 → r.b < 2 ^ 8 →
      decodeRequest p r = .setFrequency (BitVec.ofNat 7 r.a) (BitVec.ofNat 8 r.b)) ∧
  ∀ (s t : State) (a : Address) (v : Byte), s.handle.constructed = true →
    OpRun s (.setFrequency a v) t →
    ∃ ok : Bool,
      t.trace = s.trace ++
        [{ frame := { addr := a, b1 := 0x84#8, b2 := v, b3 := 0x00#8 }, ok := ok }] ∧
      t.handle = { s.handle with opErr := !ok } ∧
      t.responses = s.responses ++
        [{ status := if ok then .ok else .transportError, value := none }]

/-- R142: two runs of one host operation from handles that agree (but for the timestamp and `op_err`),
under any transport and any clock, send the same frames and leave handles that agree. What CONSTRUCT
leaves unspecified is drawn for the same handle number at the same count (log 2). -/
def Obligations.FramesAndHandleAreDetermined : Prop :=
  ∀ (i : Instr) (s s' t t' : State), i.isHostOp →
    s.handle.determined = s'.handle.determined → s.params = s'.params →
    s.env.source = s'.env.source → s.env.freeDraws = s'.env.freeDraws →
    OpRun s i t → OpRun s' i t' →
    t.handle.determined = t'.handle.determined ∧
      ∃ new new' : List Event, t.trace = s.trace ++ new ∧ t'.trace = s'.trace ++ new' ∧
        new.map Event.frame = new'.map Event.frame

/-- R138, R181: a MOVE ends under the two premises. `T 0, T 1, …` are the times of the clock's samples
from acceptance on, which never go back, and `A 0, A 1, …` the transport's answers, of which `none` is
"not yet". The clock keeps advancing: from the stored timestamp and from any sample, some later sample is at
least `step_delay_ms` further on, modulo `2^CLK_W`. Every SendFrame returns: after any answer that is out
there is one that is not. Then enough samples and answers, and any more, take the MOVE to its end; gates may
be closed at any number of polls between. -/
def Obligations.MoveTerminatesUnderItsPremises : Prop :=
  ∀ (s : State) (a : Address) (n : Int) (d : Direction) (T : Nat → Nat) (A : Nat → Option Bool),
    s.ready → s.canMove → s.sample = none →
    s.env.clock ≤ T 0 → (∀ i, T i ≤ T (i + 1)) →
    (∃ j, s.handle.stepDelayMs.toNat ≤
      elapsedMs s.params.clkW (T j % 2 ^ s.params.clkW) s.handle.lastStepTimestampMs) →
    (∀ i, ∃ j, i < j ∧ s.handle.stepDelayMs.toNat ≤
      elapsedMs s.params.clkW (T j % 2 ^ s.params.clkW) (T i % 2 ^ s.params.clkW)) →
    (∀ i, ∃ j, i ≤ j ∧ A j ≠ none) →
    ∃ m k, ∀ m' k', m ≤ m' → k ≤ k' → ∃ t, OpRun (s.under T A m' k') (.move a n d) t

/-- R179, R290: consecutive steps are at least `step_delay_ms` apart, so `m` further steps of a move
take at least `m * step_delay_ms`, in the clock's own time, whatever the polls were. `s` is the state
just after a step: its timestamp is the present clock and no sample stands. -/
def Obligations.StepsAreSpacedByTheDelay : Prop :=
  ∀ s t : State, s.handle.seq = .mvEmit → t.handle.seq = .mvEmit → s.sample = none →
    s.handle.lastStepTimestampMs = s.env.clock % 2 ^ s.params.clkW → BusyRun s t →
    t.handle.stepsRemaining ≤ s.handle.stepsRemaining ∧
    s.env.clock + (s.handle.stepsRemaining - t.handle.stepsRemaining) * s.handle.stepDelayMs.toNat ≤
      t.env.clock

/-- R76, R239: the transport's answer decides the completion and `ok` in the event, and then changes nothing
of what the sequencer does but `op_err` and the final status. -/
def Obligations.AnswerChangesOnlyTheError : Prop :=
  (∀ (s t u : State) (f : Frame) (rest : List (Option Bool)), s.xp = .requested f →
    step { s with env := { s.env with answers := some true :: rest } } = .next t →
    step { s with env := { s.env with answers := some false :: rest } } = .next u →
    t.xp = .answered true ∧ u.xp = .answered false ∧
      t.trace = s.trace ++ [{ frame := f, ok := true }] ∧
      u.trace = s.trace ++ [{ frame := f, ok := false }] ∧
      { t with xp := .idle, trace := [] } = ({ u with xp := .idle, trace := [] } : State)) ∧
  ∀ s t u : State,
    step { s with xp := .answered true } = .next t → step { s with xp := .answered false } = .next u →
    t.responses.map Response.value = u.responses.map Response.value ∧
      { t with handle := { t.handle with opErr := false }, responses := [] } =
        ({ u with handle := { u.handle with opErr := false }, responses := [] } : State)

/-! ### Several handles -/

/-- R71, R249: under every schedule the global trace is an interleaving of whole frames in which each
handle's frames stand in that handle's own order. -/
def Obligations.GlobalTraceInterleavesHandleTraces : Prop :=
  ∀ (y z : System) (schedule : List Nat),
    (∀ k s, y.handles[k]? = some s → y.busOf k = s.trace) → y.run schedule = .next z →
    ∀ k s, z.handles[k]? = some s → z.busOf k = s.trace

/-- R29, R248: a step of one handle changes no other handle. That all handles read one clock is the model's
choice: R248 says only that they normally do (log 19). -/
def Obligations.HandlesShareNoState : Prop :=
  ∀ (y z : System) (k : Nat), y.step k = .next z →
    z.handles.length = y.handles.length ∧
    (∀ j, j ≠ k → z.handles[j]? = y.handles[j]?) ∧
    ∀ s t, y.handles[k]? = some s → z.handles[k]? = some t → z.clock = t.env.clock

/-! ### Codes and reset -/

/-- R235: the code of each status. -/
def Obligations.StatusCodesAreTheSpecs : Prop :=
  statusCode .ok = 0#3 ∧ statusCode .configError = 1#3 ∧ statusCode .transportError = 2#3 ∧
    statusCode .rangeError = 3#3 ∧ statusCode .illegalOp = 4#3 ∧ ∀ st, (statusCode st).toNat ≤ 4

/-- R38, R270: the fields the spec gives a value at reset; no frame sent, no clock read, no response. -/
def Obligations.ResetLeavesTheSpecsValues : Prop :=
  State.reset.handle.constructed = false ∧ State.reset.handle.stepDelayValid = false ∧
    State.reset.handle.fsm = .idle ∧ State.reset.handle.seq = .idle ∧
    State.reset.handle.opErr = false ∧ State.reset.trace = [] ∧ State.reset.responses = [] ∧
    State.reset.xp = .idle ∧ State.reset.cmd = none ∧ State.reset.sample = none
end

