-- ==== Sys2Proof/Laws/State.lean ====
section
/-!
SUPPORT. One lemma per part of State per update: what it reads after the update.
-/
namespace Sys2Proof.Machine

/-! ### setHandle -/

@[simp] theorem State.handle_setHandle (s : State) (h : MotorHandle) : (s.setHandle h).handle = h := rfl
@[simp] theorem State.held_setHandle (s : State) (h : MotorHandle) : (s.setHandle h).held = s.held := rfl
@[simp] theorem State.cmd_setHandle (s : State) (h : MotorHandle) : (s.setHandle h).cmd = s.cmd := rfl
@[simp] theorem State.xp_setHandle (s : State) (h : MotorHandle) : (s.setHandle h).xp = s.xp := rfl
@[simp] theorem State.sample_setHandle (s : State) (h : MotorHandle) : (s.setHandle h).sample = s.sample := rfl
@[simp] theorem State.trace_setHandle (s : State) (h : MotorHandle) : (s.setHandle h).trace = s.trace := rfl
@[simp] theorem State.responses_setHandle (s : State) (h : MotorHandle) : (s.setHandle h).responses = s.responses := rfl
@[simp] theorem State.params_setHandle (s : State) (h : MotorHandle) : (s.setHandle h).params = s.params := rfl
@[simp] theorem State.transport_setHandle (s : State) (h : MotorHandle) : (s.setHandle h).transport = s.transport := rfl
@[simp] theorem State.env_setHandle (s : State) (h : MotorHandle) : (s.setHandle h).env = s.env := rfl

/-! ### setHeld -/

@[simp] theorem State.handle_setHeld (s : State) (x : Held) : (s.setHeld x).handle = s.handle := rfl
@[simp] theorem State.held_setHeld (s : State) (x : Held) : (s.setHeld x).held = x := rfl
@[simp] theorem State.cmd_setHeld (s : State) (x : Held) : (s.setHeld x).cmd = s.cmd := rfl
@[simp] theorem State.xp_setHeld (s : State) (x : Held) : (s.setHeld x).xp = s.xp := rfl
@[simp] theorem State.sample_setHeld (s : State) (x : Held) : (s.setHeld x).sample = s.sample := rfl
@[simp] theorem State.trace_setHeld (s : State) (x : Held) : (s.setHeld x).trace = s.trace := rfl
@[simp] theorem State.responses_setHeld (s : State) (x : Held) : (s.setHeld x).responses = s.responses := rfl
@[simp] theorem State.params_setHeld (s : State) (x : Held) : (s.setHeld x).params = s.params := rfl
@[simp] theorem State.transport_setHeld (s : State) (x : Held) : (s.setHeld x).transport = s.transport := rfl
@[simp] theorem State.env_setHeld (s : State) (x : Held) : (s.setHeld x).env = s.env := rfl

/-! ### setCmd -/

@[simp] theorem State.handle_setCmd (s : State) (r : Option HostRequest) : (s.setCmd r).handle = s.handle := rfl
@[simp] theorem State.held_setCmd (s : State) (r : Option HostRequest) : (s.setCmd r).held = s.held := rfl
@[simp] theorem State.cmd_setCmd (s : State) (r : Option HostRequest) : (s.setCmd r).cmd = r := rfl
@[simp] theorem State.xp_setCmd (s : State) (r : Option HostRequest) : (s.setCmd r).xp = s.xp := rfl
@[simp] theorem State.sample_setCmd (s : State) (r : Option HostRequest) : (s.setCmd r).sample = s.sample := rfl
@[simp] theorem State.trace_setCmd (s : State) (r : Option HostRequest) : (s.setCmd r).trace = s.trace := rfl
@[simp] theorem State.responses_setCmd (s : State) (r : Option HostRequest) : (s.setCmd r).responses = s.responses := rfl
@[simp] theorem State.params_setCmd (s : State) (r : Option HostRequest) : (s.setCmd r).params = s.params := rfl
@[simp] theorem State.transport_setCmd (s : State) (r : Option HostRequest) : (s.setCmd r).transport = s.transport := rfl
@[simp] theorem State.env_setCmd (s : State) (r : Option HostRequest) : (s.setCmd r).env = s.env := rfl

/-! ### setXp -/

@[simp] theorem State.handle_setXp (s : State) (x : XpPort) : (s.setXp x).handle = s.handle := rfl
@[simp] theorem State.held_setXp (s : State) (x : XpPort) : (s.setXp x).held = s.held := rfl
@[simp] theorem State.cmd_setXp (s : State) (x : XpPort) : (s.setXp x).cmd = s.cmd := rfl
@[simp] theorem State.xp_setXp (s : State) (x : XpPort) : (s.setXp x).xp = x := rfl
@[simp] theorem State.sample_setXp (s : State) (x : XpPort) : (s.setXp x).sample = s.sample := rfl
@[simp] theorem State.trace_setXp (s : State) (x : XpPort) : (s.setXp x).trace = s.trace := rfl
@[simp] theorem State.responses_setXp (s : State) (x : XpPort) : (s.setXp x).responses = s.responses := rfl
@[simp] theorem State.params_setXp (s : State) (x : XpPort) : (s.setXp x).params = s.params := rfl
@[simp] theorem State.transport_setXp (s : State) (x : XpPort) : (s.setXp x).transport = s.transport := rfl
@[simp] theorem State.env_setXp (s : State) (x : XpPort) : (s.setXp x).env = s.env := rfl

/-! ### setSample -/

@[simp] theorem State.handle_setSample (s : State) (x : Option Nat) : (s.setSample x).handle = s.handle := rfl
@[simp] theorem State.held_setSample (s : State) (x : Option Nat) : (s.setSample x).held = s.held := rfl
@[simp] theorem State.cmd_setSample (s : State) (x : Option Nat) : (s.setSample x).cmd = s.cmd := rfl
@[simp] theorem State.xp_setSample (s : State) (x : Option Nat) : (s.setSample x).xp = s.xp := rfl
@[simp] theorem State.sample_setSample (s : State) (x : Option Nat) : (s.setSample x).sample = x := rfl
@[simp] theorem State.trace_setSample (s : State) (x : Option Nat) : (s.setSample x).trace = s.trace := rfl
@[simp] theorem State.responses_setSample (s : State) (x : Option Nat) : (s.setSample x).responses = s.responses := rfl
@[simp] theorem State.params_setSample (s : State) (x : Option Nat) : (s.setSample x).params = s.params := rfl
@[simp] theorem State.transport_setSample (s : State) (x : Option Nat) : (s.setSample x).transport = s.transport := rfl
@[simp] theorem State.env_setSample (s : State) (x : Option Nat) : (s.setSample x).env = s.env := rfl

/-! ### setEnv -/

@[simp] theorem State.handle_setEnv (s : State) (e : Env) : (s.setEnv e).handle = s.handle := rfl
@[simp] theorem State.held_setEnv (s : State) (e : Env) : (s.setEnv e).held = s.held := rfl
@[simp] theorem State.cmd_setEnv (s : State) (e : Env) : (s.setEnv e).cmd = s.cmd := rfl
@[simp] theorem State.xp_setEnv (s : State) (e : Env) : (s.setEnv e).xp = s.xp := rfl
@[simp] theorem State.sample_setEnv (s : State) (e : Env) : (s.setEnv e).sample = s.sample := rfl
@[simp] theorem State.trace_setEnv (s : State) (e : Env) : (s.setEnv e).trace = s.trace := rfl
@[simp] theorem State.responses_setEnv (s : State) (e : Env) : (s.setEnv e).responses = s.responses := rfl
@[simp] theorem State.params_setEnv (s : State) (e : Env) : (s.setEnv e).params = s.params := rfl
@[simp] theorem State.transport_setEnv (s : State) (e : Env) : (s.setEnv e).transport = s.transport := rfl
@[simp] theorem State.env_setEnv (s : State) (e : Env) : (s.setEnv e).env = e := rfl

/-! ### record -/

@[simp] theorem State.handle_record (s : State) (e : Event) : (s.record e).handle = s.handle := rfl
@[simp] theorem State.held_record (s : State) (e : Event) : (s.record e).held = s.held := rfl
@[simp] theorem State.cmd_record (s : State) (e : Event) : (s.record e).cmd = s.cmd := rfl
@[simp] theorem State.xp_record (s : State) (e : Event) : (s.record e).xp = s.xp := rfl
@[simp] theorem State.sample_record (s : State) (e : Event) : (s.record e).sample = s.sample := rfl
@[simp] theorem State.trace_record (s : State) (e : Event) : (s.record e).trace = s.trace ++ [e] := rfl
@[simp] theorem State.responses_record (s : State) (e : Event) : (s.record e).responses = s.responses := rfl
@[simp] theorem State.params_record (s : State) (e : Event) : (s.record e).params = s.params := rfl
@[simp] theorem State.transport_record (s : State) (e : Event) : (s.record e).transport = s.transport := rfl
@[simp] theorem State.env_record (s : State) (e : Event) : (s.record e).env = s.env := rfl

/-! ### deliver -/

@[simp] theorem State.handle_deliver (s : State) (r : Response) : (s.deliver r).handle = s.handle := rfl
@[simp] theorem State.held_deliver (s : State) (r : Response) : (s.deliver r).held = s.held := rfl
@[simp] theorem State.cmd_deliver (s : State) (r : Response) : (s.deliver r).cmd = s.cmd := rfl
@[simp] theorem State.xp_deliver (s : State) (r : Response) : (s.deliver r).xp = s.xp := rfl
@[simp] theorem State.sample_deliver (s : State) (r : Response) : (s.deliver r).sample = s.sample := rfl
@[simp] theorem State.trace_deliver (s : State) (r : Response) : (s.deliver r).trace = s.trace := rfl
@[simp] theorem State.responses_deliver (s : State) (r : Response) : (s.deliver r).responses = s.responses ++ [r] := rfl
@[simp] theorem State.params_deliver (s : State) (r : Response) : (s.deliver r).params = s.params := rfl
@[simp] theorem State.transport_deliver (s : State) (r : Response) : (s.deliver r).transport = s.transport := rfl
@[simp] theorem State.env_deliver (s : State) (r : Response) : (s.deliver r).env = s.env := rfl

/-! ### Responses -/

@[simp] theorem handle_respond (st : Status) (s : State) : (respond st s).handle = s.handle := rfl
@[simp] theorem held_respond (st : Status) (s : State) : (respond st s).held = s.held := rfl
@[simp] theorem cmd_respond (st : Status) (s : State) : (respond st s).cmd = s.cmd := rfl
@[simp] theorem xp_respond (st : Status) (s : State) : (respond st s).xp = s.xp := rfl
@[simp] theorem sample_respond (st : Status) (s : State) : (respond st s).sample = s.sample := rfl
@[simp] theorem trace_respond (st : Status) (s : State) : (respond st s).trace = s.trace := rfl
@[simp] theorem responses_respond (st : Status) (s : State) : (respond st s).responses = s.responses ++ [{ status := st, value := none }] := rfl
@[simp] theorem params_respond (st : Status) (s : State) : (respond st s).params = s.params := rfl
@[simp] theorem transport_respond (st : Status) (s : State) : (respond st s).transport = s.transport := rfl
@[simp] theorem env_respond (st : Status) (s : State) : (respond st s).env = s.env := rfl

@[simp] theorem handle_respondVersion (s : State) : (respondVersion s).handle = s.handle := rfl
@[simp] theorem held_respondVersion (s : State) : (respondVersion s).held = s.held := rfl
@[simp] theorem cmd_respondVersion (s : State) : (respondVersion s).cmd = s.cmd := rfl
@[simp] theorem xp_respondVersion (s : State) : (respondVersion s).xp = s.xp := rfl
@[simp] theorem sample_respondVersion (s : State) : (respondVersion s).sample = s.sample := rfl
@[simp] theorem trace_respondVersion (s : State) : (respondVersion s).trace = s.trace := rfl
@[simp] theorem responses_respondVersion (s : State) : (respondVersion s).responses = s.responses ++ [{ status := .ok, value := some Config.version }] := rfl
@[simp] theorem params_respondVersion (s : State) : (respondVersion s).params = s.params := rfl
@[simp] theorem transport_respondVersion (s : State) : (respondVersion s).transport = s.transport := rfl
@[simp] theorem env_respondVersion (s : State) : (respondVersion s).env = s.env := rfl

@[simp] theorem handle_finishOp (s : State) : (finishOp s).handle = { s.handle with seq := .idle } := rfl
@[simp] theorem held_finishOp (s : State) : (finishOp s).held = s.held := rfl
@[simp] theorem cmd_finishOp (s : State) : (finishOp s).cmd = s.cmd := rfl
@[simp] theorem xp_finishOp (s : State) : (finishOp s).xp = s.xp := rfl
@[simp] theorem sample_finishOp (s : State) : (finishOp s).sample = s.sample := rfl
@[simp] theorem trace_finishOp (s : State) : (finishOp s).trace = s.trace := rfl
@[simp] theorem responses_finishOp (s : State) : (finishOp s).responses = s.responses ++ [{ status := opStatus s.handle, value := none }] := rfl
@[simp] theorem params_finishOp (s : State) : (finishOp s).params = s.params := rfl
@[simp] theorem transport_finishOp (s : State) : (finishOp s).transport = s.transport := rfl
@[simp] theorem env_finishOp (s : State) : (finishOp s).env = s.env := rfl

end Sys2Proof.Machine
end

