-- ==== Sys2Proof/Laws/Ops.lean ====
section
/-!
SUPPORT. For each shared operation one lemma that says everything it can do; and the step said once
(`step_cases`), from which the invariants follow.
-/
namespace Sys2Proof.Machine

/-! ### Arithmetic -/

theorem phaseIndex_toNat (i : Nat) : (phaseIndex i).toNat = i % 4 := by simp [phaseIndex]

theorem stepDelay_toNat {spr rpm : Nat} (h1 : 1 ≤ spr) (h2 : 1 ≤ rpm) :
    (stepDelay spr rpm).toNat = msPerMin / (spr * rpm) := by
  have hp : 0 < spr * rpm := Nat.mul_pos h1 h2
  have hd : msPerMin / (spr * rpm) ≤ msPerMin := Nat.div_le_self _ _
  have hm : msPerMin = 60000 := rfl
  simp only [stepDelay, if_neg hp.ne', BitVec.toNat_ofNat]
  exact Nat.mod_eq_of_lt (by omega)

theorem advanceIndex_lt {spr i : Nat} (d : Direction) (h : i < spr) : advanceIndex spr d i < spr := by
  cases d <;> simp only [advanceIndex] <;> split <;> omega

theorem signedField_bounds {w : Nat} (hw : 1 ≤ w) (v : Nat) :
    -(2 ^ (w - 1) : Int) ≤ signedField w v ∧ signedField w v < 2 ^ (w - 1) := by
  obtain ⟨k, rfl⟩ : ∃ k, w = k + 1 := ⟨w - 1, by omega⟩
  have hlt : truncTo (k + 1) v < 2 ^ (k + 1) := Nat.mod_lt _ (Nat.two_pow_pos _)
  have hz : ((2 : Int) ^ k) = ((2 ^ k : Nat) : Int) := by norm_cast
  have hz' : ((2 : Int) ^ (k + 1)) = ((2 ^ (k + 1) : Nat) : Int) := by norm_cast
  simp only [signedField, Nat.add_sub_cancel, hz, hz']
  rw [Nat.pow_succ] at hlt ⊢
  split <;> omega

/-! ### The transport and the clock -/

/-- A draw touches the placed answers and the draw counter only. -/
theorem drawAnswer_env (e : Env) : (drawAnswer e).2 =
    { e with answers := (drawAnswer e).2.answers, answerDraws := (drawAnswer e).2.answerDraws } := by
  unfold drawAnswer; split <;> rfl

/-- A tick touches the clock, the placed advances and the draw counter only, and never turns back. -/
theorem tick_env (e : Env) : tick e =
    { e with clock := (tick e).clock, ticks := (tick e).ticks, tickDraws := (tick e).tickDraws } ∧
      e.clock ≤ (tick e).clock := by
  unfold tick; split <;> exact ⟨rfl, Nat.le_add_right _ _⟩

/-- `SendFrame` either stays outstanding or completes with one event (R61, R12). -/
theorem sendFrame_cases (f : Frame) (s : State) :
    sendFrame f s = (s.setEnv (drawAnswer s.env).2).setXp (.requested f) ∨
      ∃ ok, sendFrame f s =
        ((s.setEnv (drawAnswer s.env).2).setXp (.answered ok)).record { frame := f, ok := ok } := by
  unfold sendFrame
  cases (drawAnswer s.env).1 with
  | none => exact .inl rfl
  | some ok => exact .inr ⟨ok, rfl⟩

/-! ### Acceptance -/

/-- Everything acceptance can do (R130, R237). -/
theorem acceptOp_cases {needs ok : Bool} {body : State → State} {s t : State}
    (h : acceptOp needs ok body s = .next t) :
    s.handle.seq = .idle ∧
      ((needs = true ∧ s.handle.constructed = false ∧ t = respond .illegalOp s) ∨
        ((needs = true → s.handle.constructed = true) ∧ ok = false ∧ t = respond .configError s) ∨
        ((needs = true → s.handle.constructed = true) ∧ ok = true ∧
          t = body (s.setHandle (clearErr s.handle)))) := by
  unfold acceptOp State.busy at h
  split at h
  · cases h
  · rename_i hb
    refine ⟨by simpa using hb, ?_⟩
    split at h
    · rename_i hc
      cases h
      exact .inl (by simpa using hc)
    · rename_i hc
      have hn : needs = true → s.handle.constructed = true := by
        intro hn; cases hk : s.handle.constructed <;> simp_all
      split at h <;> cases h
      · exact .inr (.inl ⟨hn, by simp_all, rfl⟩)
      · exact .inr (.inr ⟨hn, by simp_all, rfl⟩)

/-- When every check passes the operation runs (R130). -/
theorem acceptOp_accepts {needs ok : Bool} {body : State → State} {s : State}
    (hs : s.handle.seq = .idle) (hn : needs = true → s.handle.constructed = true) (ho : ok = true) :
    acceptOp needs ok body s = .next (body (s.setHandle (clearErr s.handle))) := by
  subst ho
  cases needs <;> simp_all [acceptOp, State.busy]

/-! ### Host operations and frame commands as a whole -/

/-- A frame command is one `SendFrame` of its frame (R200, R208). -/
theorem exec_frame {i : Instr} {f : Frame} (h : i.frame? = some f) (s : State) :
    exec i s = .next (sendFrame f s) := by
  cases i <;> simp_all [Instr.frame?, exec, execChannelSet, execPwmSet, execAddrChange, execFreqSet]

/-- A host operation touches no port and not the trace, and of the other agents' data only CONSTRUCT's
draw counter (R65, R173). -/
theorem exec_hostOp {i : Instr} (hi : i.isHostOp) {s t : State} (h : exec i s = .next t) :
    t.xp = s.xp ∧ t.trace = s.trace ∧ t.params = s.params ∧ t.transport = s.transport ∧
      t.cmd = s.cmd ∧ t.sample = s.sample ∧
      t.env = { s.env with freeDraws := t.env.freeDraws } := by
  cases i <;> simp only [Instr.isHostOp, Instr.frame?, reduceCtorEq] at hi
  case reserved7 =>
    simp only [exec, execReserved7] at h
    split at h <;> cases h
    exact ⟨rfl, rfl, rfl, rfl, rfl, rfl, rfl⟩
  all_goals
    simp only [exec, execConstruct, execSetSpeed, execMove, execRelease, execChangeAddress,
      execSetFrequency, execQueryVersion] at h
    obtain ⟨-, ⟨-, -, rfl⟩ | ⟨-, -, rfl⟩ | ⟨-, -, rfl⟩⟩ := acceptOp_cases h <;>
      exact ⟨rfl, rfl, rfl, rfl, rfl, rfl, rfl⟩

/-- A host operation on a ready block never stops: it is accepted or refused by a response (R130). -/
theorem exec_hostOp_next {i : Instr} (hi : i.isHostOp) {s : State} (hs : s.handle.seq = .idle) :
    ∃ t, exec i s = .next t := by
  have key : ∀ needs ok body, ∃ t, acceptOp needs ok body s = .next t := by
    intro needs ok body
    unfold acceptOp State.busy
    simp only [hs, bne_self_eq_false, Bool.false_eq_true, if_false]
    split
    · exact ⟨_, rfl⟩
    · split <;> exact ⟨_, rfl⟩
  cases i <;> simp only [Instr.isHostOp, Instr.frame?, reduceCtorEq] at hi
  case reserved7 => exact ⟨respond .illegalOp s, by simp [exec, execReserved7, State.busy, hs]⟩
  all_goals
    simp only [exec, execConstruct, execSetSpeed, execMove, execRelease, execChangeAddress,
      execSetFrequency, execQueryVersion]
    exact key _ _ _

/-- Every request decodes to a host operation (R100). -/
theorem decodeRequest_isHostOp (p : Params) (r : HostRequest) : (decodeRequest p r).isHostOp := by
  unfold decodeRequest; split <;> rfl

/-- A frame that decodes is the frame of the command it decodes to (R91, R93 to R96). -/
theorem decodeFrame_frame {f : Frame} {i : Instr} (h : decodeFrame f = .ok i) :
    i.frame? = some f := by
  obtain ⟨a, b1, b2, b3⟩ := f
  simp only [decodeFrame] at h
  split at h
  · rename_i h1
    split at h
    · cases h
    · rename_i h2
      split at h
      · cases h
      · rename_i h3
        cases h
        simp only [ne_eq, not_not] at h2 h3
        simp only [Instr.frame?, channelSetFrame, Option.some.injEq, Frame.mk.injEq, true_and]
        refine ⟨h1.symm, ?_, h3.symm⟩
        apply BitVec.eq_of_toNat_eq
        have h2' := congrArg BitVec.toNat h2
        simp [BitVec.extractLsb'_toNat, Nat.shiftRight_eq_div_pow] at h2' ⊢
        omega
  · split at h
    · rename_i h1
      split at h
      · cases h
      · rename_i h2
        cases h
        simp only [ne_eq, not_not] at h2
        simp [Instr.frame?, pwmSetFrame, h1, h2]
    · split at h
      · rename_i h1
        split at h
        · cases h
        · rename_i h2
          cases h
          simp only [ne_eq, not_not] at h2
          simp only [Instr.frame?, addrChangeFrame, Option.some.injEq, Frame.mk.injEq, true_and,
            and_true]
          refine ⟨h1.symm, ?_⟩
          apply BitVec.eq_of_toNat_eq
          have h2' := congrArg BitVec.toNat h2
          simp [BitVec.extractLsb'_toNat, Nat.shiftRight_eq_div_pow] at h2' ⊢
          omega
      · split at h
        · rename_i h1
          split at h
          · cases h
          · rename_i h2
            cases h
            simp only [ne_eq, not_not] at h2
            simp [Instr.frame?, freqSetFrame, h1, h2]
        · cases h

/-! ### The agents' steps -/

/-- What the host's step can do: wait, or present its next request (R11). -/
theorem hostStep_cases (s : State) :
    (s.env.program = [] ∧ hostStep s = s) ∨
      ∃ r rest, s.env.program = r :: rest ∧
        hostStep s = (s.setCmd (some r)).setEnv { s.env with program := rest } := by
  unfold hostStep
  cases h : s.env.program with
  | nil => exact .inl ⟨rfl, rfl⟩
  | cons r rest => exact .inr ⟨r, rest, rfl, rfl⟩

/-- A row's effect touches neither a port, the trace nor the other agents (R173, R240). -/
theorem rowEffect_frame (s : State) :
    (rowEffect s).xp = s.xp ∧ (rowEffect s).trace = s.trace ∧ (rowEffect s).params = s.params ∧
      (rowEffect s).transport = s.transport ∧ (rowEffect s).env = s.env ∧
      (rowEffect s).held = s.held ∧ (rowEffect s).cmd = s.cmd ∧ (rowEffect s).sample = s.sample := by
  unfold rowEffect; split <;> exact ⟨rfl, rfl, rfl, rfl, rfl, rfl, rfl, rfl⟩

/-- Taking a completion empties the transport port and touches nothing else but the handle and the
responses (R173). -/
theorem takeCompletion_frame (ok : Bool) (s : State) :
    (takeCompletion ok s).xp = .idle ∧ (takeCompletion ok s).trace = s.trace ∧
      (takeCompletion ok s).params = s.params ∧ (takeCompletion ok s).transport = s.transport ∧
      (takeCompletion ok s).env = s.env ∧ (takeCompletion ok s).held = s.held ∧
      (takeCompletion ok s).cmd = s.cmd ∧ (takeCompletion ok s).sample = s.sample := by
  unfold takeCompletion
  split
  · exact rowEffect_frame _
  · exact ⟨rfl, rfl, rfl, rfl, rfl, rfl, rfl, rfl⟩

/-- Everything a poll can do: end the loop, wait for a sample, find the gate closed, or take one step
(R173, R174). -/
theorem pollRow_cases (s : State) :
    (s.handle.stepsRemaining = 0 ∧ pollRow s = s.setHandle { s.handle with seq := .mvRelPwm }) ∨
      (s.handle.stepsRemaining ≠ 0 ∧ s.sample = none ∧ pollRow s = s) ∨
      ∃ t, s.handle.stepsRemaining ≠ 0 ∧ s.sample = some t ∧
        ((gateOpen s.params s.handle t = false ∧ pollRow s = s.setSample none) ∨
          (gateOpen s.params s.handle t = true ∧
            pollRow s = (s.setSample none).setHandle (steppedHandle t s.handle))) := by
  unfold pollRow
  split
  · exact .inl ⟨‹_›, rfl⟩
  · cases h : s.sample with
    | none => exact .inr (.inl ⟨‹_›, rfl, rfl⟩)
    | some t =>
      refine .inr (.inr ⟨t, ‹_›, rfl, ?_⟩)
      cases hg : gateOpen s.params s.handle t with
      | true => exact .inr ⟨rfl, if_pos hg⟩
      | false => exact .inl ⟨rfl, if_neg (by simpa using hg)⟩

/-! ### The step, said once -/

/-- A ready block with a request presented runs it (R130, R173). -/
theorem step_accept {s : State} {r : HostRequest} (hs : s.handle.seq = .idle) (hx : s.xp = .idle)
    (hc : s.cmd = some r) : step s = exec (decodeRequest s.params r) (s.setCmd none) := by
  simp [step, agentStep, turn, sequencerStep, idleRow, hs, hx, hc]

/-- A frame outstanding is run as the frame command it decodes to (R61). -/
theorem step_transport {s : State} {f : Frame} {i : Instr} (hx : s.xp = .requested f)
    (hd : decodeFrame f = .ok i) : step s = exec i s := by
  simp [step, agentStep, turn, transportStep, hx, hd]

/-- A completion on the port is taken (R173). -/
theorem step_completion {s : State} {ok : Bool} (hx : s.xp = .answered ok) :
    step s = .next (takeCompletion ok s) := by
  simp [step, agentStep, turn, sequencerStep, hx]

/-- A SendFrame row presents its frame (R173). -/
theorem step_present {s : State} {f : Frame} (hx : s.xp = .idle) (hf : rowFrame s = some f) :
    step s = .next (s.setXp (.requested f)) := by
  have hp : presentRow s = s.setXp (.requested f) := by simp [presentRow, hf]
  unfold rowFrame at hf
  cases hq : s.handle.seq <;> simp only [hq, reduceCtorEq] at hf <;>
    simp [step, agentStep, turn, sequencerStep, hx, hq, hp]

/-- A poll that needs a sample gets one from the clock (R244). -/
theorem step_clock {s : State} (hx : s.xp = .idle) (hq : s.handle.seq = .mvPoll)
    (hr : s.handle.stepsRemaining ≠ 0) (hn : s.sample = none) : step s = .next (clockStep s) := by
  simp [step, agentStep, turn, hx, hq, hr, hn]

/-- A poll that has its sample, or needs none, is run (R174). -/
theorem step_poll {s : State} (hx : s.xp = .idle) (hq : s.handle.seq = .mvPoll)
    (hn : s.handle.stepsRemaining = 0 ∨ s.sample ≠ none) : step s = .next (pollRow s) := by
  have h : ¬(s.handle.stepsRemaining ≠ 0 ∧ s.sample = none) := by tauto
  simp only [step, turn, hx, hq, if_neg h, agentStep, sequencerStep]

/-- Everything a step can do: the host waits or presents; the request presented is run; the frame
outstanding is run; a completion is taken; the clock gives a sample; a poll is run; a row presents its
frame. -/
theorem step_cases {s t : State} (h : step s = .next t) :
    (s.xp = .idle ∧ s.handle.seq = .idle ∧ s.cmd = none ∧ t = hostStep s) ∨
      (∃ r, s.xp = .idle ∧ s.handle.seq = .idle ∧ s.cmd = some r ∧
        exec (decodeRequest s.params r) (s.setCmd none) = .next t) ∨
      (∃ f i, s.xp = .requested f ∧ decodeFrame f = .ok i ∧ i.frame? = some f ∧
        t = sendFrame f s) ∨
      (∃ ok, s.xp = .answered ok ∧ t = takeCompletion ok s) ∨
      (s.xp = .idle ∧ s.handle.seq = .mvPoll ∧ s.handle.stepsRemaining ≠ 0 ∧ s.sample = none ∧
        t = clockStep s) ∨
      (s.xp = .idle ∧ s.handle.seq = .mvPoll ∧ t = pollRow s) ∨
      (∃ f, s.xp = .idle ∧ rowFrame s = some f ∧ t = s.setXp (.requested f)) := by
  cases hx : s.xp with
  | requested f =>
    cases hd : decodeFrame f with
    | error e => simp [step, agentStep, turn, transportStep, hx, hd] at h
    | ok i =>
      have hf := decodeFrame_frame hd
      rw [step_transport hx hd, exec_frame hf] at h
      cases h
      exact .inr (.inr (.inl ⟨f, i, rfl, hd, hf, rfl⟩))
  | answered ok =>
    rw [step_completion hx] at h
    cases h
    exact .inr (.inr (.inr (.inl ⟨ok, rfl, rfl⟩)))
  | idle =>
    cases hq : s.handle.seq
    case idle =>
      cases hc : s.cmd with
      | none =>
        simp [step, agentStep, turn, hx, hq, hc] at h
        exact .inl ⟨rfl, rfl, rfl, h.symm⟩
      | some r =>
        rw [step_accept hq hx hc] at h
        exact .inr (.inl ⟨r, rfl, rfl, rfl, h⟩)
    case mvPoll =>
      by_cases hn : s.handle.stepsRemaining ≠ 0 ∧ s.sample = none
      · rw [step_clock hx hq hn.1 hn.2] at h
        cases h
        exact .inr (.inr (.inr (.inr (.inl ⟨rfl, rfl, hn.1, hn.2, rfl⟩))))
      · rw [step_poll hx hq (by tauto)] at h
        cases h
        exact .inr (.inr (.inr (.inr (.inr (.inl ⟨rfl, rfl, rfl⟩)))))
    all_goals
      obtain ⟨f, hf⟩ : ∃ f, rowFrame s = some f := by simp [rowFrame, hq]
      rw [step_present hx hf] at h
      cases h
      exact .inr (.inr (.inr (.inr (.inr (.inr ⟨f, rfl, hf, rfl⟩)))))

end Sys2Proof.Machine
end

