-- ==== Sys2Proof/Laws/PerInstr.lean ====
section
/-!
SUPPORT. Statements for all instructions, one lemma per constructor: the encoded form of an instruction
has the bits its row of the opcode table fixes, whatever the operands and parameters (R91, R93 to R96, R100).
-/
set_option Elab.async false

namespace Sys2Proof

/-- The numbered bits of a raw form: the selector of a request, the 24 bits of a frame (R91, R99). -/
def Wire.bits : Wire → BitVec 24
  | .hostop r => r.opSel.zeroExtend 24
  | .frame f => frameWord f

/-- The `mask` of the instruction's row in spec/opcode_table.json. -/
def Instr.rowMask : Instr → BitVec 24
  | .construct _ _ => 0x7#24
  | .setSpeed _ => 0x7#24
  | .move _ _ _ => 0x7#24
  | .release _ => 0x7#24
  | .changeAddress _ _ _ => 0x7#24
  | .setFrequency _ _ => 0x7#24
  | .queryVersion => 0x7#24
  | .reserved7 => 0x7#24
  | .channelSet _ _ => 0xFFF0FF#24
  | .pwmSet _ _ => 0xFF0000#24
  | .addrChange _ _ _ => 0xFF8000#24
  | .freqSet _ _ => 0xFF00FF#24

/-- The `match` of the instruction's row in spec/opcode_table.json. -/
def Instr.rowMatch : Instr → BitVec 24
  | .construct _ _ => 0x0#24
  | .setSpeed _ => 0x1#24
  | .move _ _ _ => 0x2#24
  | .release _ => 0x3#24
  | .changeAddress _ _ _ => 0x4#24
  | .setFrequency _ _ => 0x5#24
  | .queryVersion => 0x6#24
  | .reserved7 => 0x7#24
  | .channelSet _ _ => 0xAA0000#24
  | .pwmSet _ _ => 0x820000#24
  | .addrChange _ _ _ => 0x830000#24
  | .freqSet _ _ => 0x840000#24

namespace Laws.TableRow

/-- The encoded form has the fixed bits of its row. -/
def Statement (i : Instr) : Prop := ∀ p : Params, (encode p i).bits &&& i.rowMask = i.rowMatch

theorem construct (spr : Nat) (a : Address) : Statement (.construct spr a) := by
  intro p; simp [encode, Wire.bits, Instr.rowMask, Instr.rowMatch]

theorem setSpeed (rpm : Nat) : Statement (.setSpeed rpm) := by
  intro p; simp [encode, Wire.bits, Instr.rowMask, Instr.rowMatch]

theorem move (a : Address) (n : Int) (d : Direction) : Statement (.move a n d) := by
  intro p; simp [encode, Wire.bits, Instr.rowMask, Instr.rowMatch]

theorem release (a : Address) : Statement (.release a) := by
  intro p; simp [encode, Wire.bits, Instr.rowMask, Instr.rowMatch]

theorem changeAddress (c n : Address) (persist : Bool) : Statement (.changeAddress c n persist) := by
  intro p; simp [encode, Wire.bits, Instr.rowMask, Instr.rowMatch]

theorem setFrequency (a : Address) (v : Byte) : Statement (.setFrequency a v) := by
  intro p; simp [encode, Wire.bits, Instr.rowMask, Instr.rowMatch]

theorem queryVersion : Statement .queryVersion := by
  intro p; simp [encode, Wire.bits, Instr.rowMask, Instr.rowMatch]

theorem reserved7 : Statement .reserved7 := by
  intro p; simp [encode, Wire.bits, Instr.rowMask, Instr.rowMatch]

theorem channelSet (a : Address) (pat : Pattern) : Statement (.channelSet a pat) := by
  intro p
  show (0xAA#8 ++ pat.zeroExtend 8 ++ 0x00#8 : BitVec 24) &&& 0xFFF0FF#24 = 0xAA0000#24
  revert pat; decide

theorem pwmSet (a : Address) (duty : Byte) : Statement (.pwmSet a duty) := by
  intro p
  show (0x82#8 ++ duty ++ duty : BitVec 24) &&& (0xFF#8 ++ 0x00#8 ++ 0x00#8) = 0x82#8 ++ 0x00#8 ++ 0x00#8
  simp only [BitVec.and_append, BitVec.and_zero, BitVec.reduceAnd]

theorem addrChange (a n : Address) (m : Byte) : Statement (.addrChange a n m) := by
  intro p
  show (0x83#8 ++ n.zeroExtend 8 ++ m : BitVec 24) &&& (0xFF#8 ++ 0x80#8 ++ 0x00#8) = 0x83#8 ++ 0x00#8 ++ 0x00#8
  have h : n.zeroExtend 8 &&& 0x80#8 = 0x00#8 := by revert n; decide
  simp only [BitVec.and_append, BitVec.and_zero, BitVec.reduceAnd, h]

theorem freqSet (a : Address) (v : Byte) : Statement (.freqSet a v) := by
  intro p
  show (0x84#8 ++ v ++ 0x00#8 : BitVec 24) &&& (0xFF#8 ++ 0x00#8 ++ 0xFF#8) = 0x84#8 ++ 0x00#8 ++ 0x00#8
  simp only [BitVec.and_append, BitVec.and_zero, BitVec.reduceAnd]

end Laws.TableRow

end Sys2Proof
end

