-- ==== Sys2Proof/Tests/Slice0.lean ====
section
/-!
SUPPORT. Tests, each on one definition or one step, with expected results from 95_test_vectors.md or
from the rule named, and for each statement with hypotheses a witness that meets them.
-/

set_option Elab.async false

namespace Sys2Proof.Tests

open Sys2Proof Sys2Proof.Machine

/-! ### Helpers -/

/-- The state an outcome gives, or the reset state. -/
def after (o : Host.Outcome State Fault Refusal) : State :=
  match o with
  | .next t => t
  | .fault _ => .reset
  | .refused _ => .reset

/-- `H0` of 95_test_vectors.md: `construct(200, 0x28); set_speed(60)`. -/
def h0 : State :=
  { State.reset with
    handle := { State.reset.handle with
      constructed := true
      deviceAddress := 0x28#7
      stepsPerRevolution := 200
      stepDelayMs := 5#16
      stepDelayValid := true } }

/-- `s` with the transport's answers and the clock's advances placed. -/
def given (answers : List (Option Bool)) (ticks : List Nat) (s : State) : State :=
  { s with env := { s.env with answers := answers, ticks := ticks } }

/-- `h0` in a row of R173, with `rem` steps left; `Stepping` in a MOVE's rows. -/
def inRow (q : Seq) (rem : Nat) : State :=
  { h0 with handle := { h0.handle with
      seq := q
      stepsRemaining := rem
      fsm := if q.isMove then .stepping else .idle } }

/-- `h0` in the poll with one step left and the clock's sample `t` given. -/
def polled (t : Nat) : State := (inRow .mvPoll 1).setSample (some t)

/-- `inRow` with the row's frame answered `ok`. -/
def answered (q : Seq) (ok : Bool) : State := (inRow q 0).setXp (.answered ok)

/-- `inRow` with success placed for every frame and one advance of 5 ms. -/
def ready5 (q : Seq) (rem : Nat) : State :=
  given [some true, some true, some true, some true] [5] (inRow q rem)

/-- Steps while the block is busy, at most `k`. -/
def runTo : Nat → State → State
  | 0, s => s
  | k + 1, s =>
    if s.handle.seq = .idle then s
    else
      match step s with
      | .next u => runTo k u
      | .fault _ => s
      | .refused _ => s

theorem runTo_busy (k : Nat) (s : State) : BusyRun s (runTo k s) := by
  induction k generalizing s with
  | zero => exact .here s
  | succ k ih =>
    unfold runTo
    split
    · exact .here s
    · rename_i hb
      split
      · rename_i u hu
        exact .more hb hu (ih u)
      · exact .here s
      · exact .here s

/-- A whole operation, run. -/
theorem opRun_of {s u : State} {i : Instr} (k : Nat) (hr : s.ready) (he : exec i s = .next u)
    (hd : (runTo k u).handle.seq = .idle) : OpRun s i (runTo k u) :=
  { ready := hr, run := ⟨u, he, runTo_busy k u⟩, done := hd }

/-! ### WellFormed: each check refuses an ill-formed term -/

theorem test_wf_construct : ¬ (Instr.construct 65536 0x28#7).wf Params.default := by decide

theorem test_wf_setSpeed : ¬ (Instr.setSpeed 65536).wf Params.default := by decide

theorem test_wf_move_above : ¬ (Instr.move 0x28#7 2147483648 .forward).wf Params.default := by decide

theorem test_wf_move_below : ¬ (Instr.move 0x28#7 (-2147483649) .forward).wf Params.default := by
  decide

theorem test_wf_accepts : (Instr.construct 65535 0x28#7).wf Params.default ∧
    (Instr.setSpeed 65535).wf Params.default ∧
    (Instr.move 0x28#7 2147483647 .forward).wf Params.default ∧
    (Instr.move 0x28#7 (-2147483648) .forward).wf Params.default := by decide

/-! ### Decoding: words written out from R100, R101 and R91, R93 to R97 -/

/-- V-OP7: (0, 200, 0x28, -). -/
theorem test_decode_construct :
    decodeRequest Params.default ⟨0b000#3, 200, 0x28, 0⟩ = .construct 200 0x28#7 := by decide

/-- V-OP1: (1, 60, -, -); unused slots are ignored (R101). -/
theorem test_decode_setSpeed :
    decodeRequest Params.default ⟨0b001#3, 60, 77, 99⟩ = .setSpeed 60 := by decide

/-- V-OP13: (2, 0x28, 0xFFFFFFFD, 0) is a count of -3. -/
theorem test_decode_move :
    decodeRequest Params.default ⟨0b010#3, 0x28, 0xFFFFFFFD, 0⟩ = .move 0x28#7 (-3) .forward := by
  decide

/-- V-OP12 and V-OP17: direction 1 is Backward; 0x80000000 is the most negative count. -/
theorem test_decode_move_extremes :
    decodeRequest Params.default ⟨0b010#3, 0x28, 1, 1⟩ = .move 0x28#7 1 .backward ∧
    decodeRequest Params.default ⟨0b010#3, 0x28, 0x80000000, 0⟩ =
      .move 0x28#7 (-2147483648) .forward ∧
    decodeRequest Params.default ⟨0b010#3, 0x28, 0x7FFFFFFF, 0⟩ =
      .move 0x28#7 2147483647 .forward := by decide

/-- V-OP3: (3, 0x28, -, -). -/
theorem test_decode_release :
    decodeRequest Params.default ⟨0b011#3, 0x28, 0, 0⟩ = .release 0x28#7 := by decide

/-- V-OP20, V-OP21. -/
theorem test_decode_changeAddress :
    decodeRequest Params.default ⟨0b100#3, 0x28, 0x30, 1⟩ = .changeAddress 0x28#7 0x30#7 true ∧
    decodeRequest Params.default ⟨0b100#3, 0x30, 0x31, 0⟩ = .changeAddress 0x30#7 0x31#7 false := by
  decide

/-- V-OP24. -/
theorem test_decode_setFrequency :
    decodeRequest Params.default ⟨0b101#3, 0x31, 0xFF, 0⟩ = .setFrequency 0x31#7 0xFF#8 := by decide

/-- V-OP4 and V-OP6. -/
theorem test_decode_queryVersion_reserved :
    decodeRequest Params.default ⟨0b110#3, 0, 0, 0⟩ = .queryVersion ∧
    decodeRequest Params.default ⟨0b111#3, 1, 2, 3⟩ = .reserved7 := by decide

/-- V-FRM: `28: AA 06 00`, bit by bit 10101010 0000 0110 00000000. -/
theorem test_decode_channelSet :
    decodeFrame (frameOfWord 0x28#7 0b101010100000011000000000#24) =
      .ok (.channelSet 0x28#7 0b0110#4) := by decide

/-- V-FRM: `28: 82 80 80`, bit by bit 10000010 10000000 10000000. -/
theorem test_decode_pwmSet :
    decodeFrame (frameOfWord 0x28#7 0b100000101000000010000000#24) = .ok (.pwmSet 0x28#7 0x80#8) := by
  decide

/-- V-FRM: `11: 83 7F 53`, bit by bit 10000011 0 1111111 01010011. -/
theorem test_decode_addrChange :
    decodeFrame (frameOfWord 0x11#7 0b100000110111111101010011#24) =
      .ok (.addrChange 0x11#7 0x7F#7 0x53#8) := by decide

/-- V-FRM: `28: 84 02 00`, bit by bit 10000100 00000010 00000000. -/
theorem test_decode_freqSet :
    decodeFrame (frameOfWord 0x28#7 0b100001000000001000000000#24) = .ok (.freqSet 0x28#7 0x02#8) := by
  decide

/-- The frame builders of V-FRM as 24-bit words (R203 to R206). -/
theorem test_frame_words :
    frameWord (channelSetFrame 0x00#7 0b1001#4) = 0xAA0900#24 ∧
    frameWord (channelSetFrame 0x7F#7 0b0000#4) = 0xAA0000#24 ∧
    frameWord (pwmSetFrame 0x28#7 0xFF#8) = 0x82FFFF#24 ∧
    frameWord (freqSetFrame 0x28#7 0xFF#8) = 0x84FF00#24 ∧
    frameWord (addrChangeFrame 0x28#7 0x30#7 (markerByte (markerOf false))) = 0x83304E#24 ∧
    frameWord (addrChangeFrame 0x11#7 0x7F#7 (markerByte (markerOf true))) = 0x837F53#24 := by decide

/-- The encoder: V-OP13 and V-OP22. -/
theorem test_encode_requests :
    encode Params.default (.move 0x28#7 (-3) .forward) = .hostop ⟨2#3, 0x28, 0xFFFFFFFD, 0⟩ ∧
    encode Params.default (.changeAddress 0x11#7 0x7F#7 true) = .hostop ⟨4#3, 0x11, 0x7F, 1⟩ := by
  decide

/-- The opcode table's numbering: the selector in bits 2 to 0 of a HOSTOP row, 24 bits of a FRAME row. -/
theorem test_decodeTableWord :
    decodeTableWord 8 0x3 = some (.release 0x00#7) ∧ decodeTableWord 8 0x7 = some .reserved7 ∧
    decodeTableWord 24 0x840000 = some (.freqSet 0x00#7 0x00#8) ∧
    decodeTableWord 24 0xAB0000 = none := by decide

/-! ### Arithmetic and tables -/

/-- V-DLY: the corners. -/
theorem test_delay :
    stepDelay 200 60 = 5#16 ∧ stepDelay 1 1 = 60000#16 ∧ stepDelay 3 7 = 2857#16 ∧
    stepDelay 200 300 = 1#16 ∧ stepDelay 200 301 = 0#16 ∧ stepDelay 65535 65535 = 0#16 := by decide

/-- V-GATE: elapsed across the wrap, at both clock widths, and for a clock that went back. -/
theorem test_elapsed :
    elapsedMs 32 0x000000F3 0xFFFFFF00 = 499 ∧ elapsedMs 32 0x000000F4 0xFFFFFF00 = 500 ∧
    elapsedMs 32 0 0xFFFFFFFF = 1 ∧ elapsedMs 16 464 65000 = 1000 ∧
    elapsedMs 32 999 1000 = 0xFFFFFFFF := by decide

/-- V-GATE: "≥", not ">". -/
theorem test_gate :
    gateOpen Params.default { h0.handle with stepDelayMs := 500#16 } 499 = false ∧
    gateOpen Params.default { h0.handle with stepDelayMs := 500#16 } 500 = true := by decide

/-- V-ADV. -/
theorem test_advance :
    advanceIndex 4 .forward 3 = 0 ∧ advanceIndex 4 .backward 0 = 3 ∧ advanceIndex 4 .backward 2 = 1 ∧
    advanceIndex 1 .forward 0 = 0 ∧ advanceIndex 1 .backward 0 = 0 ∧
    advanceIndex 65535 .backward 0 = 65534 := by decide

/-- V-PAT. -/
theorem test_pattern :
    patternOf 0 = 0xA#4 ∧ patternOf 197 = 0x6#4 ∧ patternOf 198 = 0x5#4 ∧ patternOf 199 = 0x9#4 ∧
    patternOf 65534 = 0x5#4 := by decide

/-! ### One step of each kind -/

/-- V-OP7: the delay is invalid, the index 0, the response OK. -/
theorem test_construct :
    (after (step (placeRequest ⟨0#3, 200, 0x28, 0⟩ .reset))).handle.stepsPerRevolution = 200 ∧
    (after (step (placeRequest ⟨0#3, 200, 0x28, 0⟩ .reset))).handle.stepDelayValid = false ∧
    (after (step (placeRequest ⟨0#3, 200, 0x28, 0⟩ .reset))).responses.map Response.status = [.ok] := by
  decide

/-- V-OP5: CONFIG_ERROR, still not constructed. -/
theorem test_construct_refused :
    after (step (placeRequest ⟨0#3, 0, 0x28, 0⟩ .reset)) = State.reset.answer .configError := by rfl

/-- V-OP10: CONFIG_ERROR, delay still 5 and valid. -/
theorem test_setSpeed_zero :
    after (step (placeRequest ⟨1#3, 0, 0, 0⟩ h0)) = h0.answer .configError := by rfl

/-- S1 of 95_test_vectors.md. -/
theorem test_setSpeed :
    (after (step (placeRequest ⟨1#3, 30, 0, 0⟩ h0))).handle.stepDelayMs = 10#16 := by decide

/-- V-OP2: ILLEGAL_OP on an unconstructed handle. -/
theorem test_move_illegal :
    after (step (placeRequest ⟨2#3, 0x28, 1, 0⟩ .reset)) = State.reset.answer .illegalOp := by rfl

/-- V-SEQ step 1. -/
theorem test_move_accepted :
    (after (step (placeRequest ⟨2#3, 0x28, 1, 1⟩ h0))).handle =
      { h0.handle with direction := .backward, fsm := .stepping, seq := .mvEnergize } := by decide

/-- V-SEQ steps 3 and 4: closed at 3, open at 5; the clock's step and the poll. -/
theorem test_poll :
    (runTo 2 (given [] [3] (inRow .mvPoll 1))).handle = (inRow .mvPoll 1).handle ∧
    (runTo 2 (given [] [5] (inRow .mvPoll 1))).handle.currentPhaseIndex = 1 ∧
    (runTo 2 (given [] [5] (inRow .mvPoll 1))).handle.stepsRemaining = 0 ∧
    (runTo 2 (given [] [5] (inRow .mvPoll 1))).handle.lastStepTimestampMs = 5 := by decide

/-- V-OP14: a failed energize frame is noted and the move goes on (R239, R240). -/
theorem test_energize_fails :
    (runTo 3 (given [some false] [] (inRow .mvEnergize 0))).handle.seq = .mvPoll ∧
    (runTo 3 (given [some false] [] (inRow .mvEnergize 0))).handle.opErr = true ∧
    (runTo 3 (given [some false] [] (inRow .mvEnergize 0))).trace =
      [{ frame := ⟨0x28#7, 0x82#8, 0xFF#8, 0xFF#8⟩, ok := false }] := by decide

/-- V-OP18: the first frame of `release(0x30)` and the row after it. -/
theorem test_release_first_row :
    (runTo 3 (ready5 .rlPwm 0)).trace = [{ frame := ⟨0x28#7, 0x82#8, 0x00#8, 0x00#8⟩, ok := true }] ∧
    (runTo 3 (ready5 .rlPwm 0)).handle.seq = .rlCh := by decide

/-- V-OP22: the frame goes to the operand, the address is committed despite the failure. -/
theorem test_changeAddress_row :
    (runTo 3 { given [some false] [] (inRow .caSend 0) with
      held := { h0.held with currentAddress := 0x11#7, newAddress := 0x7F#7, persist := true } }).trace =
      [{ frame := ⟨0x11#7, 0x83#8, 0x7F#8, 0x53#8⟩, ok := false }] ∧
    (runTo 3 { given [some false] [] (inRow .caSend 0) with
      held := { h0.held with currentAddress := 0x11#7, newAddress := 0x7F#7, persist := true } }).handle.deviceAddress
      = 0x7F#7 := by decide

/-- V-OP23: `device_address` is not updated. -/
theorem test_setFrequency_row :
    (runTo 3 { ready5 .fqSend 0 with
      held := { h0.held with freqAddress := 0x31#7, prescaler := 0x02#8 } }).trace =
      [{ frame := ⟨0x31#7, 0x84#8, 0x02#8, 0x00#8⟩, ok := true }] ∧
    (runTo 3 { ready5 .fqSend 0 with
      held := { h0.held with freqAddress := 0x31#7, prescaler := 0x02#8 } }).handle.deviceAddress
      = 0x28#7 := by decide

/-- R11, R61: a frame not yet answered stays on the port; the transport's next step answers it. -/
theorem test_transport_waits :
    (runTo 2 (given [none, some true] [] (inRow .rlPwm 0))).xp =
      .requested ⟨0x28#7, 0x82#8, 0x00#8, 0x00#8⟩ ∧
    (runTo 3 (given [none, some true] [] (inRow .rlPwm 0))).xp = .answered true := by decide

/-- R11, R71: handles 0 and 1 draw their first free answer and advance each at its own number (log 5, 6). -/
theorem test_handles_draw_at_their_numbers :
    (drawAnswer (joinAt 0 0 h0).env).1 = Config.transportAnswer 0 0 ∧
    (drawAnswer (joinAt 1 0 h0).env).1 = Config.transportAnswer 1 0 ∧
    (tick (joinAt 1 0 h0).env).clock = 0 + Config.clockAdvance 1 0 := ⟨rfl, rfl, rfl⟩

/-- R276: the host's step puts its next request on the command port of a ready block. -/
theorem test_host_presents :
    step { State.reset with env := { State.reset.env with program := [⟨7#3, 0, 0, 0⟩, ⟨6#3, 0, 0, 0⟩] } } =
      .next { State.reset with
        cmd := some ⟨7#3, 0, 0, 0⟩
        env := { State.reset.env with program := [⟨6#3, 0, 0, 0⟩] } } := by rfl

/-- V-OP4: OK on an unconstructed handle. -/
theorem test_queryVersion :
    (after (step (placeRequest ⟨6#3, 0, 0, 0⟩ .reset))).responses =
      [{ status := .ok, value := some Config.version }] := by rfl

/-- V-OP6. -/
theorem test_reserved7 :
    after (step (placeRequest ⟨7#3, 1, 2, 3⟩ h0)) = h0.answer .illegalOp := by rfl

/-- V-FRM: each frame command is one event, with the transport's answer. -/
theorem test_frame_commands :
    (after (exec (.channelSet 0x28#7 0b0110#4) (given [some true] [] h0))).trace =
      [{ frame := ⟨0x28#7, 0xAA#8, 0x06#8, 0x00#8⟩, ok := true }] ∧
    (after (exec (.pwmSet 0x28#7 0x80#8) (given [some false] [] h0))).trace =
      [{ frame := ⟨0x28#7, 0x82#8, 0x80#8, 0x80#8⟩, ok := false }] ∧
    (after (exec (.addrChange 0x28#7 0x30#7 0x4E#8) (given [some true] [] h0))).trace =
      [{ frame := ⟨0x28#7, 0x83#8, 0x30#8, 0x4E#8⟩, ok := true }] ∧
    (after (exec (.freqSet 0x28#7 0x02#8) (given [some true] [] h0))).xp = .answered true := by decide

/-- The placed instruction is the one the next step runs, for a request and for a frame. -/
theorem test_withFetchWord :
    after (step (State.reset.withFetchWord 8 0x3)) = State.reset.answer .illegalOp ∧
    (given [some true] [] State.reset).withFetchWord 24 0x840000 =
      (given [some true] [] State.reset).setXp (.requested ⟨0#7, 0x84#8, 0#8, 0#8⟩) := by
  exact ⟨rfl, rfl⟩

/-- R103: the checker refuses an opcode, a pattern, a duty pair and a marker the block never sends. -/
theorem test_emittable :
    Frame.emittable 0xFF#8 ⟨0x28#7, 0xAB#8, 0x06#8, 0x00#8⟩ = false ∧
    Frame.emittable 0xFF#8 ⟨0x28#7, 0xAA#8, 0x03#8, 0x00#8⟩ = false ∧
    Frame.emittable 0xFF#8 ⟨0x28#7, 0x82#8, 0xFF#8, 0x00#8⟩ = false ∧
    Frame.emittable 0xFF#8 ⟨0x28#7, 0x83#8, 0x30#8, 0x54#8⟩ = false ∧
    Frame.emittable 0xFF#8 ⟨0x28#7, 0xAA#8, 0x09#8, 0x00#8⟩ = true := by decide

/-! ### Witnesses: for each statement with hypotheses, states and operands that meet them -/

theorem witness_DecodeOfEncodeIsTheInstruction :
    Params.default.Ok ∧ (Instr.move 0x7F#7 (-2147483648) .backward).wf Params.default ∧
    (Instr.construct 65535 0x7F#7).wf Params.default := by decide

/-- Both sides of the equivalence, and neither for bytes of no format. -/
theorem witness_FrameBytesDecodeExactlyToTheirCommand :
    decodeFrame ⟨0x11#7, 0x83#8, 0x7F#8, 0x53#8⟩ = .ok (.addrChange 0x11#7 0x7F#7 0x53#8) ∧
    (Instr.addrChange 0x11#7 0x7F#7 0x53#8).frame? = some ⟨0x11#7, 0x83#8, 0x7F#8, 0x53#8⟩ ∧
    decodeFrame ⟨0x11#7, 0x83#8, 0x80#8, 0x53#8⟩ = .error .addressBit7 := by decide

theorem witness_PresentedRequestFitsItsPort :
    Params.default.Ok ∧ ({ sprW := 1, rpmW := 1, stepW := 1, clkW := 16, dutyFull := 0#8 } : Params).Ok := by
  decide

/-- One frame per clause, at the boundary of its range. -/
theorem witness_ForeignFramesAreRejectedByName :
    decodeFrame ⟨0#7, 0xAB#8, 0#8, 0#8⟩ = .error .unknownOpcode ∧
    decodeFrame ⟨0#7, 0xAA#8, 0x10#8, 1#8⟩ = .error .channelUpperNibble ∧
    decodeFrame ⟨0#7, 0xAA#8, 0x0F#8, 1#8⟩ = .error .channelPadding ∧
    decodeFrame ⟨0#7, 0x82#8, 0#8, 1#8⟩ = .error .dutyBytesDiffer ∧
    decodeFrame ⟨0#7, 0x83#8, 0x80#8, 0#8⟩ = .error .addressBit7 ∧
    decodeFrame ⟨0#7, 0x84#8, 0#8, 1#8⟩ = .error .freqPadding := by decide

theorem witness_StepRunsThePresentedRequest :
    (placeRequest ⟨3#3, 0x30, 0, 0⟩ h0).ready ∧
    (placeRequest ⟨3#3, 0x30, 0, 0⟩ h0).cmd = some ⟨3#3, 0x30, 0, 0⟩ := by decide

/-- A frame outstanding, a row's frame, and a completion. -/
theorem witness_StepRunsTheFrameCommand :
    (h0.setXp (.requested (pwmSetFrame 0x28#7 0xFF#8))).xp = .requested (pwmSetFrame 0x28#7 0xFF#8) ∧
    decodeFrame (pwmSetFrame 0x28#7 0xFF#8) = .ok (.pwmSet 0x28#7 0xFF#8) ∧
    (inRow .mvEmit 0).xp = .idle ∧
    rowFrame (inRow .mvEmit 0) = some ⟨0x28#7, 0xAA#8, 0x0A#8, 0x00#8⟩ ∧
    (answered .mvEmit false).xp = .answered false := by decide

/-- One step of each agent; the host's with a request and without. -/
theorem witness_AgentsWriteOnlyTheirOwn :
    turn State.reset = .host ∧ step State.reset = .next (after (step State.reset)) ∧
    turn ((inRow .rlPwm 0).setXp (.requested ⟨0x28#7, 0x82#8, 0#8, 0#8⟩)) = .transport ∧
    step ((inRow .rlPwm 0).setXp (.requested ⟨0x28#7, 0x82#8, 0#8, 0#8⟩)) =
      .next (after (step ((inRow .rlPwm 0).setXp (.requested ⟨0x28#7, 0x82#8, 0#8, 0#8⟩)))) ∧
    turn (inRow .mvPoll 1) = .clock ∧ step (inRow .mvPoll 1) = .next (after (step (inRow .mvPoll 1))) ∧
    turn (polled 5) = .sequencer ∧ step (polled 5) = .next (after (step (polled 5))) :=
  ⟨by decide, rfl, by decide, rfl, by decide, rfl, by decide, rfl⟩

/-- A step of a ready block with a request, one without, and one of a busy block. -/
theorem witness_RequestTakenOnlyWhenReady :
    (placeRequest ⟨7#3, 0, 0, 0⟩ h0).ready ∧ (placeRequest ⟨7#3, 0, 0, 0⟩ h0).cmd ≠ none ∧
    step (placeRequest ⟨7#3, 0, 0, 0⟩ h0) = .next (after (step (placeRequest ⟨7#3, 0, 0, 0⟩ h0))) ∧
    h0.ready ∧ h0.cmd = none ∧ step h0 = .next (after (step h0)) ∧
    ¬ (ready5 .rlCh 0).ready ∧ step (ready5 .rlCh 0) = .next (after (step (ready5 .rlCh 0))) :=
  ⟨by decide, by decide, rfl, by decide, rfl, rfl, by decide, rfl⟩

/-- The hypotheses of CONSTRUCT's, QUERY_VERSION's and ILLEGAL_OP's statements: not busy; and not
constructed. -/
theorem witness_ConstructInitialisesTheHandle :
    State.reset.handle.seq = .idle ∧ h0.handle.seq = .idle ∧
    (⟨0#3, 65535, 0x7F, 0⟩ : HostRequest).opSel = 0#3 ∧ 65535 < 2 ^ 16 ∧ 0x7F < 2 ^ 7 := by decide

theorem witness_QueryVersionRespondsTheConstant : State.reset.handle.seq = .idle := by decide

theorem witness_IllegalOpChangesNothing :
    State.reset.handle.seq = .idle ∧ State.reset.handle.constructed = false ∧
    (⟨7#3, 1, 2, 3⟩ : HostRequest).opSel = 7#3 := by decide

/-- Every clause: rpm 0, rpm 1, and a product just above 60000. -/
theorem witness_SetSpeedSetsTheTruncatedDelay :
    h0.handle.seq = .idle ∧ h0.handle.constructed = true ∧ 1 ≤ h0.handle.stepsPerRevolution ∧
    60000 / (h0.handle.stepsPerRevolution * 1) = 300 ∧
    60000 < h0.handle.stepsPerRevolution * 301 ∧ ¬ 60000 < h0.handle.stepsPerRevolution * 300 ∧
    (⟨1#3, 65535, 0, 0⟩ : HostRequest).opSel = 1#3 ∧ 65535 < 2 ^ 16 := by decide

/-- A speed set, and none. -/
theorem witness_MoveEntersStepping :
    h0.handle.seq = .idle ∧ h0.canMove ∧
    (h0.setHandle { h0.handle with stepDelayValid := false }).handle.constructed = true := by decide

theorem witness_FrameOperationsAreAccepted :
    h0.handle.seq = .idle ∧ h0.handle.constructed = true := by decide

/-- Each cause of CONFIG_ERROR, and a refusal that is none of them. -/
theorem witness_ConfigErrorHasThreeCausesAndNoEffect :
    (Instr.construct 0 0x28#7).isHostOp ∧ State.reset.handle.seq = .idle ∧
    after (exec (.construct 0 0x28#7) State.reset) = State.reset.answer .configError ∧
    after (exec (.setSpeed 0) h0) = h0.answer .configError ∧
    after (exec (.move 0x28#7 1 .forward) (h0.setHandle { h0.handle with stepDelayValid := false })) =
      (h0.setHandle { h0.handle with stepDelayValid := false }).answer .configError ∧
    after (exec (.setSpeed 0) State.reset) = State.reset.answer .illegalOp :=
  ⟨rfl, rfl, rfl, rfl, rfl, rfl⟩

theorem witness_BusyBlockTakesNoOperation :
    (Instr.release 0x28#7).isHostOp ∧ (inRow .mvPoll 1).handle.seq ≠ .idle := ⟨rfl, by decide⟩

/-- A CONSTRUCT, which draws, and a RELEASE, which does not. -/
theorem witness_HostOperationsFrame :
    (Instr.construct 200 0x28#7).isHostOp ∧
    exec (.construct 200 0x28#7) h0 = .next (after (exec (.construct 200 0x28#7) h0)) ∧
    (after (exec (.construct 200 0x28#7) h0)).env.freeDraws ≠ h0.env.freeDraws ∧
    exec (.release 0x30#7) h0 = .next (after (exec (.release 0x30#7) h0)) :=
  ⟨rfl, rfl, by decide, rfl⟩

theorem witness_FrameCommandsSendTheirBytes :
    (given [some false, some true] [] h0).env.answers = some false :: [some true] := by decide

theorem witness_UnansweredFrameStaysOutstanding :
    (Instr.pwmSet 0x28#7 0xFF#8).frame? = some (pwmSetFrame 0x28#7 0xFF#8) ∧
    (given [none] [] (h0.setXp (.requested (pwmSetFrame 0x28#7 0xFF#8)))).env.answers = none :: [] ∧
    (given [none] [] (h0.setXp (.requested (pwmSetFrame 0x28#7 0xFF#8)))).xp =
      .requested (pwmSetFrame 0x28#7 0xFF#8) := by decide

theorem witness_FrameCommandsFrame :
    (Instr.freqSet 0x28#7 2#8).frame? = some (freqSetFrame 0x28#7 2#8) ∧
    exec (.freqSet 0x28#7 2#8) h0 = .next (after (exec (.freqSet 0x28#7 2#8) h0)) := ⟨rfl, rfl⟩

/-- Each of the four rows, before its frame and after. -/
theorem witness_MoveRowsSendAndWrite :
    (inRow .mvEnergize 0).xp = .idle ∧ (inRow .mvEnergize 0).handle.seq = .mvEnergize ∧
    (inRow .mvEmit 0).handle.seq = .mvEmit ∧ (inRow .mvRelPwm 0).handle.seq = .mvRelPwm ∧
    (inRow .mvRelCh 0).handle.seq = .mvRelCh ∧
    (answered .mvEnergize true).xp = .answered true ∧
    (answered .mvEnergize true).handle.seq = .mvEnergize ∧
    (answered .mvEmit true).handle.seq = .mvEmit ∧ (answered .mvRelPwm true).handle.seq = .mvRelPwm ∧
    (answered .mvRelCh true).handle.seq = .mvRelCh := by decide

/-- Each of the four rows, before its frame and after. -/
theorem witness_StandaloneRowsSendAndWrite :
    (inRow .rlPwm 0).xp = .idle ∧ (inRow .rlPwm 0).handle.seq = .rlPwm ∧
    (inRow .rlCh 0).handle.seq = .rlCh ∧ (inRow .caSend 0).handle.seq = .caSend ∧
    (inRow .fqSend 0).handle.seq = .fqSend ∧
    (answered .rlPwm false).xp = .answered false ∧ (answered .rlPwm false).handle.seq = .rlPwm ∧
    (answered .rlCh false).handle.seq = .rlCh ∧ (answered .caSend false).handle.seq = .caSend ∧
    (answered .fqSend false).handle.seq = .fqSend := by decide

/-- No step left; no sample; a gate closed by one millisecond; a gate just open. -/
theorem witness_PollRowGatesOneStep :
    (inRow .mvPoll 0).xp = .idle ∧ (inRow .mvPoll 0).handle.seq = .mvPoll ∧
    (inRow .mvPoll 0).handle.stepsRemaining = 0 ∧
    (inRow .mvPoll 1).handle.stepsRemaining ≠ 0 ∧ (inRow .mvPoll 1).sample = none ∧
    (polled 4).handle.stepsRemaining ≠ 0 ∧ (polled 4).sample = some 4 ∧
    (((4 : Nat) : Int) - ((polled 4).handle.lastStepTimestampMs : Int)) % 2 ^ 32 <
      ((polled 4).handle.stepDelayMs.toNat : Int) ∧
    ((polled 5).handle.stepDelayMs.toNat : Int) ≤
      (((5 : Nat) : Int) - ((polled 5).handle.lastStepTimestampMs : Int)) % 2 ^ 32 := by
  decide

/-- The smallest width; a difference just under a full turn. -/
theorem witness_ElapsedIsWrapSafe : 16 ≤ 16 ∧ 70 ≤ 65605 ∧ 65605 - 70 < 2 ^ 16 ∧
    elapsedMs 16 (65605 % 2 ^ 16) (70 % 2 ^ 16) = 65535 := by decide

/-- Both ends of the range, and the one-step revolution. -/
theorem witness_AdvanceIsModular :
    0 < 200 ∧ 199 < 200 ∧ 199 = 200 - 1 ∧ 0 < 1 ∧ advanceIndex 200 .backward 0 = 199 := by decide

/-- The product just above 60000, and a poll with delay 0 at which no time has passed. -/
theorem witness_ZeroDelayStepsAtEveryPoll :
    60000 < 200 * 301 ∧
    (let s := (polled 0).setHandle { (polled 0).handle with stepDelayMs := 0#16 }
     s.xp = .idle ∧ s.handle.seq = .mvPoll ∧ s.handle.stepsRemaining ≠ 0 ∧ s.sample = some 0 ∧
       s.handle.stepDelayMs = 0#16) := by
  decide

/-- A step that writes both fields. -/
theorem witness_OnlyConstructWritesStepsPerRevolution :
    step (placeRequest ⟨0#3, 6, 0x0F, 0⟩ .reset) = .next (after (step (placeRequest ⟨0#3, 6, 0x0F, 0⟩ .reset))) ∧
    (after (step (placeRequest ⟨0#3, 6, 0x0F, 0⟩ .reset))).handle.stepsPerRevolution ≠ 0 ∧
    (after (step (placeRequest ⟨0#3, 6, 0x0F, 0⟩ .reset))).handle.constructed ≠ false :=
  ⟨rfl, by decide, by decide⟩

/-- A RELEASE and a CA_SEND row that write it. -/
theorem witness_DeviceAddressHasFourWriters :
    step (placeRequest ⟨3#3, 0x30, 0, 0⟩ h0) = .next (after (step (placeRequest ⟨3#3, 0x30, 0, 0⟩ h0))) ∧
    (after (step (placeRequest ⟨3#3, 0x30, 0, 0⟩ h0))).handle.deviceAddress ≠ h0.handle.deviceAddress ∧
    step (answered .caSend true) = .next (after (step (answered .caSend true))) ∧
    (after (step (answered .caSend true))).handle.deviceAddress ≠
      (answered .caSend true).handle.deviceAddress :=
  ⟨rfl, by decide, rfl, by decide⟩

/-- A SET_SPEED, and a row that leaves a valid delay. -/
theorem witness_OnlySetSpeedWritesAValidDelay :
    step (placeRequest ⟨1#3, 30, 0, 0⟩ h0) = .next (after (step (placeRequest ⟨1#3, 30, 0, 0⟩ h0))) ∧
    (after (step (placeRequest ⟨1#3, 30, 0, 0⟩ h0))).handle.stepDelayValid = true ∧
    step (ready5 .rlPwm 0) = .next (after (step (ready5 .rlPwm 0))) ∧
    (after (step (ready5 .rlPwm 0))).handle.stepDelayValid = true :=
  ⟨rfl, by decide, rfl, by decide⟩

/-- A step advance changes the index and the timestamp; a MOVE the direction. -/
theorem witness_IndexTimestampAndDirectionWriters :
    step (polled 5) = .next (after (step (polled 5))) ∧
    (after (step (polled 5))).handle.currentPhaseIndex ≠ 0 ∧
    (after (step (polled 5))).handle.lastStepTimestampMs ≠ 0 ∧
    step (placeRequest ⟨2#3, 0x28, 1, 1⟩ h0) = .next (after (step (placeRequest ⟨2#3, 0x28, 1, 1⟩ h0))) ∧
    (after (step (placeRequest ⟨2#3, 0x28, 1, 1⟩ h0))).handle.direction ≠ h0.handle.direction :=
  ⟨rfl, by decide, by decide, rfl, by decide⟩

/-- The handle `h0`, in every row of R173, meets the invariant. -/
theorem inv_inRow (q : Seq) : HandleInv Params.default (inRow q 0).handle where
  busyConstructed := fun _ => rfl
  fsmStepping := by cases q <;> decide
  sprRange := fun _ => (by decide : 1 ≤ 200 ∧ 200 < 2 ^ 16)
  indexRange := fun _ => (by decide : 0 < 200)
  timestampRange := fun _ => (by decide : 0 < 2 ^ 32)
  countRange := fun _ => Nat.zero_le _
  countDone := fun _ _ => rfl
  delayFormula := fun _ => ⟨rfl, 60, by decide, by decide, (by decide : 5 = 60000 / (200 * 60))⟩
  moveDelay := fun _ => rfl

/-- `h0` in the row `q` with the ports, the trace and the other agents as given. -/
def rowWith (q : Seq) (c : Option HostRequest) (x : XpPort) (tr : List Event) (e : Env) : State :=
  { inRow q 0 with cmd := c, xp := x, trace := tr, env := e }

/-- The invariant in every row, when the ports agree with the row. -/
theorem inv_rowWith {q : Seq} {c : Option HostRequest} {x : XpPort} {tr : List Event} {e : Env}
    (hc : q ≠ .idle → c = none) (hr : ∀ f, x = .requested f → rowFrame (inRow q 0) = some f)
    (ha : ∀ ok, x = .answered ok →
      ∃ f, rowFrame (inRow q 0) = some f ∧ tr.getLast? = some { frame := f, ok := ok })
    (ht : ∀ e ∈ tr, e.frame.emittable 0xFF#8 = true) : Inv (rowWith q c x tr e) where
  params := (by decide : Params.default.Ok)
  handle := inv_inRow q
  heldCount := fun _ => Nat.zero_le _
  oneRequest := hc
  port := hr
  completion := ha
  sampleUse := nofun
  traceEmittable := ht

/-- With nothing on any port and an empty trace. -/
theorem inv_given (q : Seq) (e : Env) : Inv (rowWith q none .idle [] e) :=
  inv_rowWith (fun _ => rfl) nofun nofun nofun

/-- The row MV_REL_CH with its frame answered. -/
def lastRow : State :=
  rowWith .mvRelCh none (.answered true)
    [{ frame := channelSetFrame 0x28#7 0b0000#4, ok := true }] .reset

theorem inv_lastRow : Inv lastRow := by
  refine inv_rowWith (fun _ => rfl) nofun ?_ (by decide)
  intro ok h
  cases h
  exact ⟨_, rfl, rfl⟩

/-- A MOVE's acceptance takes the first arc, its last row the second. -/
theorem witness_FsmHasTwoArcs :
    Inv (placeRequest ⟨2#3, 0x28, 1, 0⟩ (inRow .idle 0)) ∧
    step (placeRequest ⟨2#3, 0x28, 1, 0⟩ (inRow .idle 0)) =
      .next (after (step (placeRequest ⟨2#3, 0x28, 1, 0⟩ (inRow .idle 0)))) ∧
    (inRow .idle 0).handle.fsm = .idle ∧
    (after (step (placeRequest ⟨2#3, 0x28, 1, 0⟩ (inRow .idle 0)))).handle.fsm = .stepping ∧
    Inv lastRow ∧ step lastRow = .next (after (step lastRow)) ∧
    lastRow.handle.fsm = .stepping ∧ (after (step lastRow)).handle.fsm = .idle :=
  ⟨inv_rowWith (c := some ⟨2#3, 0x28, 1, 0⟩) (fun h => absurd rfl h) nofun nofun nofun, rfl, rfl,
    by decide, inv_lastRow, rfl, by decide, by decide⟩

/-- A completion taken, in a state that meets the invariant. -/
theorem witness_EveryStepKeepsTheInvariant :
    Inv lastRow ∧ step lastRow = .next (after (step lastRow)) := ⟨inv_lastRow, rfl⟩

theorem witness_NoStepTrapsOrRefuses :
    Inv (rowWith .mvPoll none .idle [] .reset) ∧ Inv (rowWith .caSend none .idle [] .reset) ∧
    Inv lastRow :=
  ⟨inv_given .mvPoll _, inv_given .caSend _, inv_lastRow⟩

/-- Before the energize frame nothing has been commanded; in the loop, full duty has. -/
theorem witness_EveryStepKeepsWhatWasCommanded :
    (Inv (ready5 .mvEnergize 0) ∧ CommandedInv (ready5 .mvEnergize 0) ∧
      step (ready5 .mvEnergize 0) = .next (after (step (ready5 .mvEnergize 0)))) ∧
    CommandedInv ((ready5 .mvPoll 0).record { frame := pwmSetFrame 0x28#7 0xFF#8, ok := true }) := by
  refine ⟨⟨inv_given .mvEnergize _, ⟨fun _ => ⟨nofun, nofun⟩, ?_, ?_, ?_⟩, rfl⟩,
    ⟨?_, fun _ => rfl, ?_, ?_⟩⟩ <;>
  · intro h
    revert h
    decide

/-- The transport's step on the frame of a row. -/
theorem witness_TraceGrowsByTheRowsFrame :
    (let s := (ready5 .mvEmit 0).setXp (.requested ⟨0x28#7, 0xAA#8, 0x0A#8, 0#8⟩)
     step s = .next (after (step s)) ∧ (after (step s)).trace.length = 1) := ⟨rfl, by decide⟩

/-- A step that responds with a value. -/
theorem witness_OneResponseEndsAnOperation :
    step (placeRequest ⟨6#3, 0, 0, 0⟩ h0) = .next (after (step (placeRequest ⟨6#3, 0, 0, 0⟩ h0))) ∧
    (after (step (placeRequest ⟨6#3, 0, 0, 0⟩ h0))).responses.length = 1 := ⟨rfl, by decide⟩

/-- A step that moves the clock on. -/
theorem witness_ParametersAndBindingAreConstant :
    step (ready5 .mvPoll 1) = .next (after (step (ready5 .mvPoll 1))) ∧
    (after (step (ready5 .mvPoll 1))).env.clock = 5 ∧
    (after (step (ready5 .mvPoll 1))).sample = some 5 := ⟨rfl, by decide, by decide⟩

/-! ### Witnesses of whole operations -/

/-- `h0` with answers and advances for two moves of one step; the second answer is a failure. -/
def h0two : State :=
  given [some true, some false, some true, some true, some true, some true, some true, some true] [5, 5] h0

/-- `h0two` after `move(0x28, 1, Forward)`. -/
def moved : State := runTo 20 (after (exec (.move 0x28#7 1 .forward) h0two))

theorem moved_run : OpRun h0two (.move 0x28#7 1 .forward) moved :=
  opRun_of 20 (by decide) rfl (by decide)

/-- One step with a failed frame, and a move of no step. -/
theorem witness_MoveSendsItsFramesAndAdvances :
    h0two.canMove ∧ OpRun h0two (.move 0x28#7 1 .forward) moved ∧
    OpRun h0two (.move 0x28#7 0 .forward) (runTo 20 (after (exec (.move 0x28#7 0 .forward) h0two))) :=
  ⟨by decide, moved_run, opRun_of 20 (by decide) rfl (by decide)⟩

theorem witness_IndexAfterStepsIsModular : 199 < 200 ∧ indexAfter 200 .forward 2 199 = 1 := by decide

/-- Forward, one quiet step, backward. -/
theorem witness_RoundTripReturnsTheIndex :
    h0two.canMove ∧ 1 ≤ h0two.handle.stepsPerRevolution ∧
    h0two.handle.currentPhaseIndex < h0two.handle.stepsPerRevolution ∧
    OpRun h0two (.move 0x28#7 1 .forward) moved ∧ QuietRun moved moved ∧
    OpRun moved (.move 0x29#7 1 .backward) (runTo 20 (after (exec (.move 0x29#7 1 .backward) moved))) := by
  refine ⟨by decide, by decide, by decide, moved_run, .more ⟨rfl, ?_, ?_, rfl⟩ (.here _),
    opRun_of 20 ⟨rfl, rfl⟩ rfl rfl⟩
  · intro _ r h
    cases h
  · intro _ r h
    cases h

/-- A RELEASE whose first frame fails. -/
theorem witness_ReleaseSendsExactlyTwoFrames :
    (⟨3#3, 0x7F, 0, 0⟩ : HostRequest).opSel = 3#3 ∧ h0.handle.constructed = true ∧
    OpRun (given [some false, some true] [] h0) (.release 0x30#7)
      (runTo 6 (after (exec (.release 0x30#7) (given [some false, some true] [] h0)))) :=
  ⟨rfl, rfl, opRun_of 6 (by decide) rfl (by decide)⟩

/-- Both operations. -/
theorem witness_DeenergizedAtRest :
    h0two.canMove ∧ OpRun h0two (.move 0x28#7 1 .forward) moved ∧ h0.handle.constructed = true ∧
    OpRun (given [some false, some true] [] h0) (.release 0x30#7)
      (runTo 6 (after (exec (.release 0x30#7) (given [some false, some true] [] h0)))) :=
  ⟨by decide, moved_run, rfl, opRun_of 6 (by decide) rfl (by decide)⟩

/-- V-OP22. -/
theorem witness_ChangeAddressCommitsRegardless :
    (⟨4#3, 0x7F, 0x7F, 1⟩ : HostRequest).opSel = 4#3 ∧ h0.handle.constructed = true ∧
    OpRun (given [some false] [] h0) (.changeAddress 0x11#7 0x7F#7 true)
      (runTo 3 (after (exec (.changeAddress 0x11#7 0x7F#7 true) (given [some false] [] h0)))) :=
  ⟨rfl, rfl, opRun_of 3 (by decide) rfl (by decide)⟩

/-- V-OP24. -/
theorem witness_SetFrequencyPassesThrough :
    (⟨5#3, 0x7F, 0xFF, 0⟩ : HostRequest).opSel = 5#3 ∧ h0.handle.constructed = true ∧
    OpRun (given [some false] [] h0) (.setFrequency 0x31#7 0xFF#8)
      (runTo 3 (after (exec (.setFrequency 0x31#7 0xFF#8) (given [some false] [] h0)))) :=
  ⟨rfl, rfl, opRun_of 3 (by decide) rfl (by decide)⟩

/-- The same RELEASE under two transports. -/
theorem witness_FramesAndHandleAreDetermined :
    (Instr.release 0x30#7).isHostOp ∧
    OpRun (given [some false, some true] [] h0) (.release 0x30#7)
      (runTo 6 (after (exec (.release 0x30#7) (given [some false, some true] [] h0)))) ∧
    OpRun (given [some true, some true] [] h0) (.release 0x30#7)
      (runTo 6 (after (exec (.release 0x30#7) (given [some true, some true] [] h0)))) ∧
    (given [some false, some true] [] h0).handle.determined =
      (given [some true, some true] [] h0).handle.determined :=
  ⟨rfl, opRun_of 6 (by decide) rfl (by decide), opRun_of 6 (by decide) rfl (by decide), rfl⟩

/-- The first MOVE after a CONSTRUCT, at time 7: one millisecond a poll, so that four gates of five are
closed, and a transport that is late at its second answer. -/
theorem witness_MoveTerminatesUnderItsPremises :
    (let s : State := { h0 with env := { h0.env with clock := 7 } }
     let T : Nat → Nat := fun i => 8 + i
     let A : Nat → Option Bool := fun i => if i = 1 then none else some true
     s.ready ∧ s.canMove ∧ s.sample = none ∧ s.env.clock ≤ T 0 ∧ (∀ i, T i ≤ T (i + 1)) ∧
     (∃ j, s.handle.stepDelayMs.toNat ≤
       elapsedMs s.params.clkW (T j % 2 ^ s.params.clkW) s.handle.lastStepTimestampMs) ∧
     (∀ i, ∃ j, i < j ∧ s.handle.stepDelayMs.toNat ≤
       elapsedMs s.params.clkW (T j % 2 ^ s.params.clkW) (T i % 2 ^ s.params.clkW)) ∧
     ∀ i, ∃ j, i ≤ j ∧ A j ≠ none) := by
  refine ⟨by decide, by decide, rfl, by decide, fun i => Nat.le_succ _, ⟨0, by decide⟩, ?_, ?_⟩
  · intro i
    refine ⟨i + 5, by omega, ?_⟩
    change 5 ≤ (((((8 + (i + 5)) % 2 ^ 32 : Nat) : Int) -
      (((8 + i) % 2 ^ 32 : Nat) : Int)) % 2 ^ 32).toNat
    omega
  · intro i
    exact ⟨i + 2, by omega, by simp⟩

/-- From one step of a move to the next: the rest of the row, the clock's step and the poll. -/
theorem witness_StepsAreSpacedByTheDelay :
    (ready5 .mvEmit 1).handle.seq = .mvEmit ∧ (ready5 .mvEmit 1).sample = none ∧
    (ready5 .mvEmit 1).handle.lastStepTimestampMs = (ready5 .mvEmit 1).env.clock % 2 ^ 32 ∧
    BusyRun (ready5 .mvEmit 1) (runTo 5 (ready5 .mvEmit 1)) ∧
    (runTo 5 (ready5 .mvEmit 1)).handle.seq = .mvEmit ∧
    (runTo 5 (ready5 .mvEmit 1)).handle.stepsRemaining = 0 :=
  ⟨by decide, rfl, by decide, runTo_busy 5 _, by decide, by decide⟩

/-- Both answers to the last frame of a RELEASE, at the transport's step and at the sequencer's. -/
theorem witness_AnswerChangesOnlyTheError :
    (let s := (inRow .rlCh 0).setXp (.requested ⟨0x28#7, 0xAA#8, 0#8, 0#8⟩)
     step (given [some true] [] s) = .next (after (step (given [some true] [] s))) ∧
     step (given [some false] [] s) = .next (after (step (given [some false] [] s)))) ∧
    step (answered .rlCh true) = .next (after (step (answered .rlCh true))) ∧
    step (answered .rlCh false) = .next (after (step (answered .rlCh false))) := ⟨⟨rfl, rfl⟩, rfl, rfl⟩

/-- Program 6 of 95_test_vectors.md: two handles, each with a RELEASE. -/
def twoHandles : System :=
  { handles :=
      [placeRequest ⟨3#3, 0x28, 0, 0⟩ (given [some true, some true] [] h0),
        placeRequest ⟨3#3, 0x29, 0, 0⟩ (given [some true, some true] [] h0)]
    bus := []
    clock := 0 }

/-- The system an outcome gives. -/
def afterSystem (o : Host.Outcome System Fault Refusal) : System :=
  match o with
  | .next z => z
  | .fault _ => twoHandles
  | .refused _ => twoHandles

/-- A schedule of Program 6: both accept; both present their first frame, the transport answers 0 and then
1, both take the completion; both present their second frame, the transport answers 1 and then 0. -/
def schedule : List Nat := [0, 1, 0, 1, 0, 1, 0, 1, 0, 1, 1, 0, 0, 1]

theorem witness_GlobalTraceInterleavesHandleTraces :
    (∀ k s, twoHandles.handles[k]? = some s → twoHandles.busOf k = s.trace) ∧
    twoHandles.run schedule = .next (afterSystem (twoHandles.run schedule)) ∧
    (afterSystem (twoHandles.run schedule)).bus.map BusEvent.handle = [0, 1, 1, 0] := by
  refine ⟨?_, rfl, by decide⟩
  intro k s h
  match k, h with
  | 0, h => cases h; rfl
  | 1, h => cases h; rfl
  | k + 2, h => cases h

theorem witness_HandlesShareNoState :
    twoHandles.step 1 = .next (afterSystem (twoHandles.step 1)) ∧
    (afterSystem (twoHandles.step 1)).handles[1]? ≠ twoHandles.handles[1]? := ⟨rfl, by decide⟩

end Sys2Proof.Tests
end

/-! ## The agents' frames: what each of the four agents writes (R11, R244, R245) -/

namespace Sys2Proof.Machine

/-! ### The host, the transport and the clock -/

/-- The host writes only its list and the command port (R11). -/
theorem hostStep_frame (s : State) :
    hostStep s =
      { s with
        cmd := (hostStep s).cmd
        env := { s.env with program := (hostStep s).env.program } } := by
  obtain ⟨-, hwait⟩ | ⟨r, rest, -, hpresent⟩ := hostStep_cases s
  · rw [hwait]
  · rw [hpresent]; rfl

/-- Sending a frame writes only the transport port, the trace and the transport's answers (R11, R61). -/
theorem sendFrame_frame (f : Frame) (s : State) :
    sendFrame f s =
      { s with
        xp := (sendFrame f s).xp
        trace := (sendFrame f s).trace
        env := { s.env with
          answers := (sendFrame f s).env.answers
          answerDraws := (sendFrame f s).env.answerDraws } } := by
  have hdraw := drawAnswer_env s.env
  obtain houtstanding | ⟨ok, hanswered⟩ := sendFrame_cases f s
  · rw [houtstanding]; exact congrArg (fun e => (s.setEnv e).setXp (.requested f)) hdraw
  · rw [hanswered]
    exact congrArg (fun e => ((s.setEnv e).setXp (.answered ok)).record ⟨f, ok⟩) hdraw

/-- The transport's step leaves its port alone or answers the frame outstanding by one `SendFrame` of it
(R61). -/
theorem transportStep_cases {s t : State} (h : transportStep s = .next t) :
    t = s ∨ ∃ f, s.xp = .requested f ∧ t = sendFrame f s := by
  unfold transportStep at h
  cases hx : s.xp <;> simp only [hx] at h
  case requested f =>
    cases hd : decodeFrame f with
    | error e => simp [hd] at h
    | ok i =>
      simp only [hd, exec_frame (decodeFrame_frame hd)] at h
      cases h
      exact .inr ⟨f, rfl, rfl⟩
  all_goals
    cases h
    exact .inl rfl

/-- The transport writes only its port, the trace and its answers (R11). -/
theorem transportStep_frame {s t : State} (h : transportStep s = .next t) :
    t = { s with
      xp := t.xp
      trace := t.trace
      env := { s.env with answers := t.env.answers, answerDraws := t.env.answerDraws } } := by
  obtain rfl | ⟨f, -, rfl⟩ := transportStep_cases h
  · rfl
  · exact sendFrame_frame f s

/-- The clock writes only the sample and its own time, placed advances and draw counter (R11, R244). -/
theorem clockStep_frame (s : State) :
    clockStep s =
      { s with
        sample := (clockStep s).sample
        env := { s.env with
          clock := (clockStep s).env.clock
          ticks := (clockStep s).env.ticks
          tickDraws := (clockStep s).env.tickDraws } } :=
  congrArg (fun e => (s.setEnv e).setSample (clockStep s).sample) (tick_env s.env).1

/-- The clock never goes back (R245). -/
theorem clock_le_clockStep (s : State) : s.env.clock ≤ (clockStep s).env.clock :=
  (tick_env s.env).2

/-- The sample is the clock's new time modulo `2^CLK_W` (R244, R245). -/
theorem sample_clockStep (s : State) :
    (clockStep s).sample = some ((clockStep s).env.clock % 2 ^ s.params.clkW) := rfl

/-! ### The sequencer -/

/-- Presenting a frame adds no event and touches no other agent's data (R62). -/
theorem presentRow_trace_env (s : State) :
    (presentRow s).trace = s.trace ∧ (presentRow s).env = s.env := by
  unfold presentRow
  split <;> exact ⟨rfl, rfl⟩

/-- A poll adds no event and touches no other agent's data (R174). -/
theorem pollRow_trace_env (s : State) : (pollRow s).trace = s.trace ∧ (pollRow s).env = s.env := by
  obtain ⟨-, hend⟩ | ⟨-, -, hwait⟩ | ⟨t, -, -, ⟨-, hclosed⟩ | ⟨-, hopen⟩⟩ := pollRow_cases s
  · rw [hend]; exact ⟨rfl, rfl⟩
  · rw [hwait]; exact ⟨rfl, rfl⟩
  · rw [hclosed]; exact ⟨rfl, rfl⟩
  · rw [hopen]; exact ⟨rfl, rfl⟩

/-- The row `IDLE` adds no event, and of the other agents' data only CONSTRUCT's draw counter changes
(R130, R131). -/
theorem idleRow_trace_env {s t : State} (h : idleRow s = .next t) :
    t.trace = s.trace ∧ t.env = { s.env with freeDraws := t.env.freeDraws } := by
  unfold idleRow at h
  cases hc : s.cmd with
  | none =>
    simp only [hc] at h
    cases h
    exact ⟨rfl, rfl⟩
  | some r =>
    simp only [hc] at h
    obtain ⟨-, htrace, -, -, -, -, henv⟩ := exec_hostOp (decodeRequest_isHostOp s.params r) h
    exact ⟨htrace, henv⟩

/-- Everything the sequencer's step can do: nothing, take a completion, run the row `IDLE`, poll, or
present its row's frame (R173). -/
theorem sequencerStep_cases {s t : State} (h : sequencerStep s = .next t) :
    t = s ∨ (∃ ok, s.xp = .answered ok ∧ t = takeCompletion ok s) ∨
      (s.handle.seq = .idle ∧ idleRow s = .next t) ∨
      (s.handle.seq = .mvPoll ∧ t = pollRow s) ∨ t = presentRow s := by
  unfold sequencerStep at h
  cases hx : s.xp with
  | requested f =>
    simp only [hx] at h
    cases h
    exact .inl rfl
  | answered ok =>
    simp only [hx] at h
    cases h
    exact .inr (.inl ⟨ok, rfl, rfl⟩)
  | idle =>
    simp only [hx] at h
    cases hq : s.handle.seq <;> simp only [hq] at h
    case idle => exact .inr (.inr (.inl ⟨rfl, h⟩))
    case mvPoll =>
      cases h
      exact .inr (.inr (.inr (.inl ⟨rfl, rfl⟩)))
    all_goals
      cases h
      exact .inr (.inr (.inr (.inr rfl)))

/-- The sequencer adds no event, draws no answer and moves no clock: of the other agents' data it changes
only CONSTRUCT's draw counter (R11). -/
theorem sequencerStep_trace_env {s t : State} (h : sequencerStep s = .next t) :
    t.trace = s.trace ∧ t.env = { s.env with freeDraws := t.env.freeDraws } := by
  have quiet : ∀ u : State, u.trace = s.trace ∧ u.env = s.env →
      u.trace = s.trace ∧ u.env = { s.env with freeDraws := u.env.freeDraws } := by
    rintro u ⟨htrace, henv⟩
    exact ⟨htrace, by rw [henv]⟩
  obtain rfl | ⟨ok, -, rfl⟩ | ⟨-, hidle⟩ | ⟨-, rfl⟩ | rfl := sequencerStep_cases h
  · exact ⟨rfl, rfl⟩
  · obtain ⟨-, htrace, -, -, henv, -⟩ := takeCompletion_frame ok s
    exact quiet _ ⟨htrace, henv⟩
  · exact idleRow_trace_env hidle
  · exact quiet _ (pollRow_trace_env s)
  · exact quiet _ (presentRow_trace_env s)

/-! ### The step is the step of the agent whose turn it is -/

/-- The agent whose turn it is takes the step (R11; log 8). -/
theorem agentStep_of_turn {g : Agent} {s t : State} (h : step s = .next t) (hg : turn s = g) :
    agentStep g s = .next t := hg ▸ h

/-- Settles O10: agent by agent, the frame of its own step. -/
theorem agentsWriteOnlyTheirOwn : Obligations.AgentsWriteOnlyTheirOwn := by
  intro s t h
  refine ⟨fun hg => ?host, fun hg => ?transport, fun hg => ?clock, fun hg => ?sequencer⟩ <;>
    have hstep := agentStep_of_turn h hg
  case host =>
    cases hstep
    exact hostStep_frame s
  case transport => exact transportStep_frame hstep
  case clock =>
    cases hstep
    exact ⟨clockStep_frame s, clock_le_clockStep s, sample_clockStep s⟩
  case sequencer => exact sequencerStep_trace_env hstep

end Sys2Proof.Machine

/-! ## What a step can do to the handle, and which steps write a field (R21 to R27, R37) -/

namespace Sys2Proof.Machine

/-! ### The host operations -/

/-- What a host operation can make of the handle `h`, operation by operation: it is refused, or it makes
the writes of its `IDLE` row (R131 to R137, R173). -/
inductive HostOpEffect (i : Instr) (h : MotorHandle) (t : State) : Prop where
  | refused (hh : t.handle = h)
  | construct {spr : Nat} {a : Address} (delay : Delay) (d : Direction) (hi : i = .construct spr a)
      (hspr : spr ≠ 0) (hh : t.handle = constructedHandle spr a delay d (clearErr h))
  | setSpeed {rpm : Nat} (hi : i = .setSpeed rpm) (hrpm : rpm ≠ 0) (hc : h.constructed = true)
      (hh : t.handle = { clearErr h with
        stepDelayMs := stepDelay h.stepsPerRevolution rpm, stepDelayValid := true })
  | move {a : Address} {n : Int} {d : Direction} (hi : i = .move a n d) (hc : h.constructed = true)
      (hv : h.stepDelayValid = true) (hn : t.held.stepCount = n)
      (hh : t.handle = { clearErr h with
        deviceAddress := a, direction := d, fsm := .stepping, seq := .mvEnergize })
  | release {a : Address} (hi : i = .release a) (hc : h.constructed = true)
      (hh : t.handle = { clearErr h with deviceAddress := a, seq := .rlPwm })
  | changeAddress (hc : h.constructed = true)
      (hh : t.handle = { clearErr h with seq := .caSend })
  | setFrequency (hc : h.constructed = true)
      (hh : t.handle = { clearErr h with seq := .fqSend })
  | queryVersion (hh : t.handle = clearErr h)

/-- An operation under the checks of R130 has its accepted effect or is refused. -/
theorem hostOpEffect_of_acceptOp {i : Instr} {needs ok : Bool} {body : State → State} {s t : State}
    (h : acceptOp needs ok body s = .next t)
    (accepted : (needs = true → s.handle.constructed = true) → ok = true →
      HostOpEffect i s.handle (body (s.setHandle (clearErr s.handle)))) : HostOpEffect i s.handle t := by
  obtain ⟨-, ⟨-, -, rfl⟩ | ⟨-, -, rfl⟩ | ⟨hc, hok, rfl⟩⟩ := acceptOp_cases h
  · exact .refused rfl
  · exact .refused rfl
  · exact accepted hc hok

/-- Everything a host operation can do to the handle (R173, row `IDLE`). -/
theorem exec_hostOp_effect {i : Instr} (hi : i.isHostOp) {s t : State} (h : exec i s = .next t) :
    HostOpEffect i s.handle t := by
  cases i <;> simp only [exec, execConstruct, execSetSpeed, execMove, execRelease,
    execChangeAddress, execSetFrequency, execQueryVersion, execReserved7] at h
  case construct =>
    exact hostOpEffect_of_acceptOp h fun _ hspr => .construct _ _ rfl (by simpa using hspr) rfl
  case setSpeed =>
    exact hostOpEffect_of_acceptOp h fun hc hrpm => .setSpeed rfl (by simpa using hrpm) (hc rfl) rfl
  case move => exact hostOpEffect_of_acceptOp h fun hc hv => .move rfl (hc rfl) hv rfl rfl
  case release => exact hostOpEffect_of_acceptOp h fun hc _ => .release rfl (hc rfl) rfl
  case changeAddress => exact hostOpEffect_of_acceptOp h fun hc _ => .changeAddress (hc rfl) rfl
  case setFrequency => exact hostOpEffect_of_acceptOp h fun hc _ => .setFrequency (hc rfl) rfl
  case queryVersion => exact hostOpEffect_of_acceptOp h fun _ _ => .queryVersion rfl
  case reserved7 =>
    split at h <;> cases h
    exact .refused rfl
  all_goals cases hi

/-! ### The rows -/

/-- In a busy block a completion is noted in `op_err` and the row's effect follows (R173). -/
theorem takeCompletion_busy {s : State} (hq : s.handle.seq ≠ .idle) (ok : Bool) :
    takeCompletion ok s = rowEffect ((s.setXp .idle).setHandle (noteErr ok s.handle)) := by
  simp [takeCompletion, State.busy, hq]

/-- In a ready block a completion is only taken off the port (log 22). -/
theorem takeCompletion_ready {s : State} (hq : s.handle.seq = .idle) (ok : Bool) :
    takeCompletion ok s = s.setXp .idle := by
  simp [takeCompletion, State.busy, hq]

/-- Of the handle a row writes the address, the count and its control fields only (R173). -/
theorem handle_rowEffect_frame (s : State) :
    (rowEffect s).handle =
      { s.handle with
        deviceAddress := (rowEffect s).handle.deviceAddress
        stepsRemaining := (rowEffect s).handle.stepsRemaining
        fsm := (rowEffect s).handle.fsm
        seq := (rowEffect s).handle.seq } := by
  unfold rowEffect; split <;> rfl

/-- Taking a completion writes of the handle what a row writes, and `op_err` (R32, R173). -/
theorem handle_takeCompletion_frame (ok : Bool) (s : State) :
    (takeCompletion ok s).handle =
      { s.handle with
        deviceAddress := (takeCompletion ok s).handle.deviceAddress
        stepsRemaining := (takeCompletion ok s).handle.stepsRemaining
        fsm := (takeCompletion ok s).handle.fsm
        seq := (takeCompletion ok s).handle.seq
        opErr := (takeCompletion ok s).handle.opErr } := by
  by_cases hq : s.handle.seq = .idle
  · rw [takeCompletion_ready hq]; rfl
  · rw [takeCompletion_busy hq, handle_rowEffect_frame]; rfl

/-- Only the row CA_SEND writes the address: the new one of its request (R22, R135). -/
theorem deviceAddress_rowEffect (s : State) :
    (rowEffect s).handle.deviceAddress = s.handle.deviceAddress ∨
      (s.handle.seq = .caSend ∧ (rowEffect s).handle.deviceAddress = s.held.newAddress) := by
  unfold rowEffect
  cases hq : s.handle.seq
  case caSend => exact .inr ⟨rfl, rfl⟩
  all_goals exact .inl rfl

/-- A completion changes the address only as the row CA_SEND does (R22, R135). -/
theorem deviceAddress_takeCompletion (ok : Bool) (s : State) :
    (takeCompletion ok s).handle.deviceAddress = s.handle.deviceAddress ∨
      (s.handle.seq = .caSend ∧
        (takeCompletion ok s).handle.deviceAddress = s.held.newAddress) := by
  by_cases hq : s.handle.seq = .idle
  · rw [takeCompletion_ready hq]; exact .inl rfl
  · rw [takeCompletion_busy hq]; exact deviceAddress_rowEffect _

/-- A poll writes the handle and takes the sample, and nothing else (R174). -/
theorem pollRow_frame (s : State) :
    pollRow s = { s with handle := (pollRow s).handle, sample := (pollRow s).sample } := by
  obtain ⟨-, hend⟩ | ⟨-, -, hwait⟩ | ⟨t, -, -, ⟨-, hclosed⟩ | ⟨-, hopen⟩⟩ := pollRow_cases s
  · rw [hend]; rfl
  · rw [hwait]
  · rw [hclosed]; rfl
  · rw [hopen]; rfl

/-- What a poll can do to the handle: go to another row at most, or take the one step of an open gate
(R174). -/
theorem handle_pollRow (s : State) :
    (∃ q, (pollRow s).handle = { s.handle with seq := q }) ∨
      ∃ t, s.handle.stepsRemaining ≠ 0 ∧ s.sample = some t ∧
        (pollRow s).handle = steppedHandle t s.handle := by
  obtain ⟨-, hend⟩ | ⟨-, -, hwait⟩ | ⟨t, hr, hs, ⟨-, hclosed⟩ | ⟨-, hopen⟩⟩ := pollRow_cases s
  · exact .inl ⟨.mvRelPwm, by rw [hend]; rfl⟩
  · exact .inl ⟨s.handle.seq, by rw [hwait]⟩
  · exact .inl ⟨s.handle.seq, by rw [hclosed]; rfl⟩
  · exact .inr ⟨t, hr, hs, by rw [hopen]; rfl⟩

/-! ### The step -/

/-- Presenting a request leaves the handle (R11). -/
@[simp] theorem handle_hostStep (s : State) : (hostStep s).handle = s.handle := by
  rw [hostStep_frame]

/-- A frame command leaves the handle (R207). -/
@[simp] theorem handle_sendFrame (f : Frame) (s : State) : (sendFrame f s).handle = s.handle := by
  rw [sendFrame_frame]

/-- Everything a step can do to the handle: nothing, the effect of the operation it accepts, the row's
effect after a completion, or a poll. -/
theorem step_handle_cases {s t : State} (h : step s = .next t) :
    t.handle = s.handle ∨
      (s.ready ∧ ∃ r, s.cmd = some r ∧ HostOpEffect (decodeRequest s.params r) s.handle t) ∨
      (∃ ok, s.xp = .answered ok ∧ t = takeCompletion ok s) ∨
      (s.handle.seq = .mvPoll ∧ t = pollRow s) := by
  obtain ⟨-, -, -, rfl⟩ | ⟨r, hx, hq, hc, hexec⟩ | ⟨f, i, -, -, -, rfl⟩ | ⟨ok, hx, rfl⟩ |
    ⟨-, -, -, -, rfl⟩ | ⟨-, hq, rfl⟩ | ⟨f, -, -, rfl⟩ := step_cases h
  case inr.inl =>
    have heffect := exec_hostOp_effect (decodeRequest_isHostOp s.params r) hexec
    exact .inr (.inl ⟨⟨hq, hx⟩, r, hc, heffect⟩)
  case inr.inr.inr.inl => exact .inr (.inr (.inl ⟨ok, hx, rfl⟩))
  case inr.inr.inr.inr.inr.inl => exact .inr (.inr (.inr ⟨hq, rfl⟩))
  all_goals exact .inl (by simp [clockStep])

end Sys2Proof.Machine

namespace Sys2Proof.Machine

/-! ### The writers of each field -/

/-- A step leaves `steps_per_revolution` and `constructed`, or takes a CONSTRUCT that writes both (R21,
R23). -/
theorem step_stepsPerRevolution_writers {s t : State} (h : step s = .next t) :
    (t.handle.stepsPerRevolution = s.handle.stepsPerRevolution ∧
      t.handle.constructed = s.handle.constructed) ∨
    (s.ready ∧ ∃ r spr a, s.cmd = some r ∧ decodeRequest s.params r = .construct spr a ∧ spr ≠ 0 ∧
      t.handle.stepsPerRevolution = spr ∧ t.handle.constructed = true) := by
  obtain hh | ⟨hready, r, hcmd, heffect⟩ | ⟨ok, -, rfl⟩ | ⟨-, rfl⟩ := step_handle_cases h
  · exact .inl ⟨congrArg (·.stepsPerRevolution) hh, congrArg (·.constructed) hh⟩
  · cases heffect with
    | construct delay d hi hspr hh =>
      exact .inr ⟨hready, r, _, _, hcmd, hi, hspr,
        congrArg (·.stepsPerRevolution) hh, congrArg (·.constructed) hh⟩
    | refused hh | setSpeed _ _ _ hh | move _ _ _ _ hh | release _ _ hh | changeAddress _ hh
    | setFrequency _ hh | queryVersion hh =>
      exact .inl ⟨congrArg (·.stepsPerRevolution) hh, congrArg (·.constructed) hh⟩
  · have hh := handle_takeCompletion_frame ok s
    exact .inl ⟨congrArg (·.stepsPerRevolution) hh, congrArg (·.constructed) hh⟩
  · obtain ⟨q, hh⟩ | ⟨c, -, -, hh⟩ := handle_pollRow s <;>
      exact .inl ⟨congrArg (·.stepsPerRevolution) hh, congrArg (·.constructed) hh⟩

/-- Settles O32: a step that takes no successful CONSTRUCT leaves both fields. -/
theorem onlyConstructWritesStepsPerRevolution : Obligations.OnlyConstructWritesStepsPerRevolution := by
  intro s t h
  obtain ⟨hspr, hc⟩ | hconstruct := step_stepsPerRevolution_writers h
  · exact ⟨fun h1 => hc.trans h1, fun hwritten => absurd hwritten (by simp [hspr, hc])⟩
  · have hone : t.handle.constructed = true := by
      obtain ⟨-, -, -, -, -, -, -, -, hone⟩ := hconstruct
      exact hone
    exact ⟨fun _ => hone, fun _ => hconstruct⟩

/-- Settles O33: CONSTRUCT, MOVE and RELEASE write the address at acceptance, CA_SEND at its completion. -/
theorem deviceAddressHasFourWriters : Obligations.DeviceAddressHasFourWriters := by
  intro s t h hwritten
  obtain hh | ⟨hready, r, hcmd, heffect⟩ | ⟨ok, -, rfl⟩ | ⟨-, rfl⟩ := step_handle_cases h
  · exact absurd (congrArg (·.deviceAddress) hh) hwritten
  · cases heffect with
    | construct delay d hi _ hh => exact .inl ⟨hready, r, hcmd, .inl ⟨_, by rw [hi, hh]; rfl⟩⟩
    | move hi _ _ _ hh => exact .inl ⟨hready, r, hcmd, .inr (.inl ⟨_, _, by rw [hi, hh]⟩)⟩
    | release hi _ hh => exact .inl ⟨hready, r, hcmd, .inr (.inr (by rw [hi, hh]))⟩
    | refused hh | setSpeed _ _ _ hh | changeAddress _ hh | setFrequency _ hh | queryVersion hh =>
      exact absurd (congrArg (·.deviceAddress) hh) hwritten
  · exact .inr ((deviceAddress_takeCompletion ok s).resolve_left hwritten)
  · obtain ⟨q, hh⟩ | ⟨c, -, -, hh⟩ := handle_pollRow s <;>
      exact absurd (congrArg (·.deviceAddress) hh) hwritten

/-- A step leaves the delay and its valid flag, or leaves no valid delay, or takes a SET_SPEED that
succeeds (R24). -/
theorem step_stepDelay_writers {s t : State} (h : step s = .next t) :
    (t.handle.stepDelayValid = s.handle.stepDelayValid ∧
      t.handle.stepDelayMs = s.handle.stepDelayMs) ∨
    t.handle.stepDelayValid = false ∨
    (s.ready ∧ ∃ r rpm, s.cmd = some r ∧ decodeRequest s.params r = .setSpeed rpm ∧ rpm ≠ 0 ∧
      s.handle.constructed = true ∧
      t.handle.stepDelayMs = stepDelay s.handle.stepsPerRevolution rpm) := by
  obtain hh | ⟨hready, r, hcmd, heffect⟩ | ⟨ok, -, rfl⟩ | ⟨-, rfl⟩ := step_handle_cases h
  · exact .inl ⟨congrArg (·.stepDelayValid) hh, congrArg (·.stepDelayMs) hh⟩
  · cases heffect with
    | construct delay d _ _ hh => exact .inr (.inl (congrArg (·.stepDelayValid) hh))
    | setSpeed hi hrpm hc hh =>
      exact .inr (.inr ⟨hready, r, _, hcmd, hi, hrpm, hc, congrArg (·.stepDelayMs) hh⟩)
    | refused hh | move _ _ _ _ hh | release _ _ hh | changeAddress _ hh | setFrequency _ hh
    | queryVersion hh => exact .inl ⟨congrArg (·.stepDelayValid) hh, congrArg (·.stepDelayMs) hh⟩
  · have hh := handle_takeCompletion_frame ok s
    exact .inl ⟨congrArg (·.stepDelayValid) hh, congrArg (·.stepDelayMs) hh⟩
  · obtain ⟨q, hh⟩ | ⟨c, -, -, hh⟩ := handle_pollRow s <;>
      exact .inl ⟨congrArg (·.stepDelayValid) hh, congrArg (·.stepDelayMs) hh⟩

/-- Settles O34: CONSTRUCT leaves no valid delay, SET_SPEED writes one, and nothing else touches it. -/
theorem onlySetSpeedWritesAValidDelay : Obligations.OnlySetSpeedWritesAValidDelay := by
  intro s t h hvalid
  obtain ⟨hsame, hdelay⟩ | hinvalid | hspeed := step_stepDelay_writers h
  · exact .inl ⟨hsame ▸ hvalid, hdelay⟩
  · simp [hinvalid] at hvalid
  · exact .inr hspeed

/-- A step leaves the index and the timestamp, or takes a CONSTRUCT that writes 0 to both, or is one open
poll (R25, R27). -/
theorem step_index_timestamp_writers {s t : State} (h : step s = .next t) :
    (t.handle.currentPhaseIndex = s.handle.currentPhaseIndex ∧
      t.handle.lastStepTimestampMs = s.handle.lastStepTimestampMs) ∨
    (s.ready ∧ (∃ r spr a, s.cmd = some r ∧ decodeRequest s.params r = .construct spr a) ∧
      t.handle.currentPhaseIndex = 0 ∧ t.handle.lastStepTimestampMs = 0) ∨
    (s.handle.seq = .mvPoll ∧ s.handle.stepsRemaining ≠ 0 ∧
      ∃ c, s.sample = some c ∧ t.handle = steppedHandle c s.handle) := by
  obtain hh | ⟨hready, r, hcmd, heffect⟩ | ⟨ok, -, rfl⟩ | ⟨hq, rfl⟩ := step_handle_cases h
  · exact .inl ⟨congrArg (·.currentPhaseIndex) hh, congrArg (·.lastStepTimestampMs) hh⟩
  · cases heffect with
    | construct delay d hi _ hh =>
      exact .inr (.inl ⟨hready, ⟨r, _, _, hcmd, hi⟩,
        congrArg (·.currentPhaseIndex) hh, congrArg (·.lastStepTimestampMs) hh⟩)
    | refused hh | setSpeed _ _ _ hh | move _ _ _ _ hh | release _ _ hh | changeAddress _ hh
    | setFrequency _ hh | queryVersion hh =>
      exact .inl ⟨congrArg (·.currentPhaseIndex) hh, congrArg (·.lastStepTimestampMs) hh⟩
  · have hh := handle_takeCompletion_frame ok s
    exact .inl ⟨congrArg (·.currentPhaseIndex) hh, congrArg (·.lastStepTimestampMs) hh⟩
  · obtain ⟨q, hh⟩ | ⟨c, hr, hs, hh⟩ := handle_pollRow s
    · exact .inl ⟨congrArg (·.currentPhaseIndex) hh, congrArg (·.lastStepTimestampMs) hh⟩
    · exact .inr (.inr ⟨hq, hr, c, hs, hh⟩)

/-- The direction is written by CONSTRUCT and MOVE only (R26). -/
theorem step_direction_writers {s t : State} (h : step s = .next t)
    (hwritten : t.handle.direction ≠ s.handle.direction) :
    s.ready ∧ ∃ r, s.cmd = some r ∧
      ((∃ spr a, decodeRequest s.params r = .construct spr a) ∨
        ∃ a n, decodeRequest s.params r = .move a n t.handle.direction) := by
  obtain hh | ⟨hready, r, hcmd, heffect⟩ | ⟨ok, -, rfl⟩ | ⟨-, rfl⟩ := step_handle_cases h
  · exact absurd (congrArg (·.direction) hh) hwritten
  · cases heffect with
    | construct _ _ hi => exact ⟨hready, r, hcmd, .inl ⟨_, _, hi⟩⟩
    | move hi _ _ _ hh => exact ⟨hready, r, hcmd, .inr ⟨_, _, by rw [hi, hh]⟩⟩
    | refused hh | setSpeed _ _ _ hh | release _ _ hh | changeAddress _ hh | setFrequency _ hh
    | queryVersion hh => exact absurd (congrArg (·.direction) hh) hwritten
  · exact absurd (congrArg (·.direction) (handle_takeCompletion_frame ok s)) hwritten
  · obtain ⟨q, hh⟩ | ⟨c, -, -, hh⟩ := handle_pollRow s <;>
      exact absurd (congrArg (·.direction) hh) hwritten

/-- Settles O35: the writers of the index and the timestamp, and those of the direction. -/
theorem indexTimestampAndDirectionWriters : Obligations.IndexTimestampAndDirectionWriters := by
  intro s t h
  refine ⟨fun hwritten => ?_, step_direction_writers h⟩
  obtain ⟨hindex, htime⟩ | hconstruct | ⟨hq, hr, c, hs, hh⟩ := step_index_timestamp_writers h
  · exact absurd hwritten (by simp [hindex, htime])
  · exact .inl hconstruct
  · rw [hh]
    exact .inr ⟨hq, hr, rfl, hs, rfl, Nat.sub_one_add_one hr⟩

/-! ### What no step writes -/

/-- Every step leaves the parameters and the transport binding, and the clock does not go back. -/
theorem step_params_transport_clock {s t : State} (h : step s = .next t) :
    t.params = s.params ∧ t.transport = s.transport ∧ s.env.clock ≤ t.env.clock := by
  obtain ⟨-, -, -, rfl⟩ | ⟨r, -, -, -, hexec⟩ | ⟨f, i, -, -, -, rfl⟩ | ⟨ok, -, rfl⟩ |
    ⟨-, -, -, -, rfl⟩ | ⟨-, -, rfl⟩ | ⟨f, -, -, rfl⟩ := step_cases h
  · rw [hostStep_frame]; exact ⟨rfl, rfl, le_rfl⟩
  · obtain ⟨-, -, hparams, htransport, -, -, henv⟩ :=
      exec_hostOp (decodeRequest_isHostOp s.params r) hexec
    exact ⟨hparams, htransport, by rw [henv]; rfl⟩
  · rw [sendFrame_frame]; exact ⟨rfl, rfl, le_rfl⟩
  · obtain ⟨-, -, hparams, htransport, henv, -⟩ := takeCompletion_frame ok s
    exact ⟨hparams, htransport, by rw [henv]⟩
  · exact ⟨rfl, rfl, clock_le_clockStep s⟩
  · rw [pollRow_frame]; exact ⟨rfl, rfl, le_rfl⟩
  · exact ⟨rfl, rfl, le_rfl⟩

/-- Settles O43. -/
theorem parametersAndBindingAreConstant : Obligations.ParametersAndBindingAreConstant :=
  fun _ _ => step_params_transport_clock

/-! ### Several handles -/

/-- A step of handle `k` is a step of its machine, joined to the system, or there is no such handle. -/
theorem System.step_cases {y z : System} {k : Nat} (h : y.step k = .next z) :
    (y.handles[k]? = none ∧ z = y) ∨
      ∃ s t, y.handles[k]? = some s ∧ Machine.step (joinAt k y.clock s) = .next t ∧
        z = y.update k s t := by
  unfold System.step at h
  cases hk : y.handles[k]? with
  | none =>
    simp only [hk] at h
    cases h
    exact .inl ⟨rfl, rfl⟩
  | some s =>
    cases hstep : Machine.step (joinAt k y.clock s) with
    | next t =>
      simp only [hk, hstep] at h
      cases h
      exact .inr ⟨s, t, rfl, hstep, rfl⟩
    | fault r => simp [hk, hstep] at h
    | refused r => simp [hk, hstep] at h

/-- Settles O57: the update of the list at `k` leaves every other place. -/
theorem handlesShareNoState : Obligations.HandlesShareNoState := by
  intro y z k h
  obtain ⟨hnone, rfl⟩ | ⟨s, t, hs, -, rfl⟩ := System.step_cases h
  · exact ⟨rfl, fun _ _ => rfl, fun s _ hs => by simp [hnone] at hs⟩
  · refine ⟨List.length_set, fun j hj => List.getElem?_set_ne (Ne.symm hj), fun _ u _ hu => ?_⟩
    have hlt : k < y.handles.length := (List.getElem?_eq_some_iff.mp hs).1
    have hnew : (y.handles.set k t)[k]? = some t := List.getElem?_set_self hlt
    obtain rfl : t = u := Option.some.inj (hnew.symm.trans hu)
    rfl

/-! ### Reset -/

/-- Settles O59. -/
theorem resetLeavesTheSpecsValues : Obligations.ResetLeavesTheSpecsValues :=
  ⟨rfl, rfl, rfl, rfl, rfl, rfl, rfl, rfl, rfl, rfl⟩

end Sys2Proof.Machine

/-! ## The invariant: it holds at reset and every step keeps it (R21 to R31, R39, R103, R141, R171) -/

namespace Sys2Proof

open Machine

/-! ### Operands and frames -/

/-- Every decoded request is in the range of its port (R98, R101). -/
theorem decodeRequest_wf {p : Params} (hp : p.Ok) (r : HostRequest) : (decodeRequest p r).wf p := by
  obtain ⟨-, -, hstep, -⟩ := hp
  unfold decodeRequest
  split
  case h_1 => exact Nat.mod_lt _ (Nat.two_pow_pos _)
  case h_2 => exact Nat.mod_lt _ (Nat.two_pow_pos _)
  case h_3 => exact signedField_bounds hstep _
  all_goals exact trivial

/-- The magnitude of a count in the range of its port fits the counter (R28, R133). -/
theorem natAbs_le_of_move_wf {p : Params} {a : Address} {n : Int} {d : Direction}
    (h : (Instr.move a n d).wf p) : n.natAbs ≤ 2 ^ (p.stepW - 1) := by
  obtain ⟨hlow, hhigh⟩ := h
  zify
  exact abs_le.mpr ⟨hlow, hhigh.le⟩

theorem patternOf_mem_sentPatterns (i : Nat) : patternOf i ∈ sentPatterns := by
  have htable : ∀ row : BitVec 2, phasePattern row ∈ sentPatterns := by decide
  exact htable _

theorem emittable_channelSetFrame {pat : Pattern} (hpat : pat ∈ sentPatterns) (duty : Byte)
    (a : Address) : (channelSetFrame a pat).emittable duty = true := by
  have hany : sentPatterns.any (fun q => pat.zeroExtend 8 == q.zeroExtend 8) = true :=
    List.any_eq_true.mpr ⟨pat, hpat, by simp⟩
  simp only [Frame.emittable, channelSetFrame, beq_self_eq_true, hany, Bool.and_self, Bool.true_or]

theorem emittable_pwmSetFrame {duty d : Byte} (hd : d = duty ∨ d = dutyOff) (a : Address) :
    (pwmSetFrame a d).emittable duty = true := by
  obtain rfl | rfl := hd <;> simp [Frame.emittable, pwmSetFrame]

theorem emittable_addrChangeFrame (duty : Byte) (a n : Address) (m : PersistMarker) :
    (addrChangeFrame a n (markerByte m)).emittable duty = true := by
  have hmsb : (n.zeroExtend 8).msb = false := by simp [BitVec.msb_setWidth]
  cases m <;> simp [Frame.emittable, addrChangeFrame, hmsb]

theorem emittable_freqSetFrame (duty : Byte) (a : Address) (v : Byte) :
    (freqSetFrame a v).emittable duty = true := by
  simp [Frame.emittable, freqSetFrame]

/-- Every row presents a frame the block may emit (R103, R173). -/
theorem emittable_of_rowFrame {s : State} {f : Frame} (h : rowFrame s = some f) :
    f.emittable s.params.dutyFull = true := by
  have hoff : patternOff ∈ sentPatterns := by decide
  unfold rowFrame at h
  cases hq : s.handle.seq <;> simp only [hq] at h <;> cases h
  case mvEnergize => exact emittable_pwmSetFrame (.inl rfl) _
  case mvEmit => exact emittable_channelSetFrame (patternOf_mem_sentPatterns _) _ _
  case mvRelPwm | rlPwm => exact emittable_pwmSetFrame (.inr rfl) _
  case mvRelCh | rlCh => exact emittable_channelSetFrame hoff _ _
  case caSend => exact emittable_addrChangeFrame _ _ _ _
  case fqSend => exact emittable_freqSetFrame _ _ _

/-- `IDLE` and `MV_POLL` present no frame (R173). -/
theorem seq_ne_of_rowFrame {s : State} {f : Frame} (h : rowFrame s = some f) :
    s.handle.seq ≠ .idle ∧ s.handle.seq ≠ .mvPoll := by
  constructor <;> intro hq <;> simp [rowFrame, hq] at h

/-! ### The handle's invariant under the writes of the rows -/

section

variable {p : Params} {h : MotorHandle}

/-- The invariant does not speak of `op_err` (R32). -/
theorem HandleInv.setErr (inv : HandleInv p h) (e : Bool) : HandleInv p { h with opErr := e } :=
  { inv with }

/-- The invariant does not speak of `device_address` (R22). -/
theorem HandleInv.setAddress (inv : HandleInv p h) (a : Address) :
    HandleInv p { h with deviceAddress := a } :=
  { inv with }

/-- From one row to another, within a MOVE or outside one: the loop is left only with no step remaining
(R173). -/
theorem HandleInv.goto (inv : HandleInv p h) {q q' : Seq} (hq : h.seq = q)
    (hc : q' ≠ .idle → h.constructed = true) (hmove : q'.isMove = q.isMove)
    (hcount : q'.isLoop = true ∨ q.isLoop = false ∨ h.stepsRemaining = 0) :
    HandleInv p { h with seq := q' } where
  __ := inv
  busyConstructed := hc
  fsmStepping := by simpa [hmove, hq] using inv.fsmStepping
  countDone hcons hloop := by
    obtain hin | hout | hdone := hcount
    · simp [hin] at hloop
    · exact inv.countDone hcons (hq ▸ hout)
    · exact hdone
  moveDelay hq' := inv.moveDelay (by rwa [hq, ← hmove])

/-- From one busy row to another or back to `IDLE` (R173). -/
theorem HandleInv.goto_busy (inv : HandleInv p h) {q q' : Seq} (hq : h.seq = q) (hbusy : q ≠ .idle)
    (hmove : q'.isMove = q.isMove) (hcount : q'.isLoop = true ∨ q.isLoop = false) :
    HandleInv p { h with seq := q' } :=
  inv.goto hq (fun _ => inv.busyConstructed (hq ▸ hbusy)) hmove (hcount.imp_right .inl)

/-- `MV_ENERGIZE` loads the count and enters the loop (R133, R173). -/
theorem HandleInv.energized (inv : HandleInv p h) (hq : h.seq = .mvEnergize) {n : Nat}
    (hn : n ≤ 2 ^ (p.stepW - 1)) : HandleInv p { h with stepsRemaining := n, seq := .mvPoll } where
  __ := inv
  busyConstructed _ := inv.busyConstructed (by simp [hq])
  fsmStepping := by simpa [hq, Seq.isMove] using inv.fsmStepping
  countRange _ := hn
  countDone _ hloop := by cases hloop
  moveDelay _ := inv.moveDelay (by simp [hq, Seq.isMove])

/-- An open poll takes one step: the new index wraps within the revolution (R174, R176, R178). -/
theorem HandleInv.stepped (inv : HandleInv p h) (hq : h.seq = .mvPoll) {t : Nat}
    (ht : t < 2 ^ p.clkW) : HandleInv p (steppedHandle t h) where
  __ := inv
  busyConstructed _ := inv.busyConstructed (by simp [hq])
  fsmStepping := by simpa [steppedHandle, hq, Seq.isMove] using inv.fsmStepping
  indexRange hc := advanceIndex_lt h.direction (inv.indexRange hc)
  timestampRange _ := ht
  countRange hc := (Nat.sub_le _ _).trans (inv.countRange hc)
  countDone _ hloop := by cases hloop
  moveDelay _ := inv.moveDelay (by simp [hq, Seq.isMove])

/-- `MV_REL_CH` ends the MOVE: Idle and `IDLE` (R171, R173). -/
theorem HandleInv.moveDone (inv : HandleInv p h) (hq : h.seq = .mvRelCh) :
    HandleInv p { h with fsm := .idle, seq := .idle } where
  __ := inv
  busyConstructed hbusy := absurd rfl hbusy
  fsmStepping := by simp [Seq.isMove]
  countDone hc _ := inv.countDone hc (by simp [hq, Seq.isLoop])
  moveDelay hmove := by cases hmove

/-- CONSTRUCT establishes the invariant whatever the handle was, and whatever the free values are (R38,
R131). -/
theorem HandleInv.constructed {spr : Nat} (hspr : spr ≠ 0) (hwf : spr < 2 ^ p.sprW) (a : Address)
    (delay : Delay) (d : Direction) : HandleInv p (constructedHandle spr a delay d h) where
  busyConstructed _ := rfl
  fsmStepping := by simp [constructedHandle, Seq.isMove]
  sprRange _ := ⟨Nat.one_le_iff_ne_zero.mpr hspr, hwf⟩
  indexRange _ := Nat.pos_of_ne_zero hspr
  timestampRange _ := Nat.two_pow_pos _
  countRange _ := Nat.zero_le _
  countDone _ _ := rfl
  delayFormula hvalid := by cases hvalid
  moveDelay hmove := by cases hmove

/-- SET_SPEED writes the delay of a positive speed (R24, R132). -/
theorem HandleInv.speedSet (inv : HandleInv p h) (hc : h.constructed = true) {rpm : Nat}
    (hrpm : rpm ≠ 0) (hwf : rpm < 2 ^ p.rpmW) :
    HandleInv p { h with
      stepDelayMs := stepDelay h.stepsPerRevolution rpm, stepDelayValid := true } where
  __ := inv
  delayFormula _ := by
    obtain ⟨hspr, -⟩ := inv.sprRange hc
    have hrpm' : 1 ≤ rpm := Nat.one_le_iff_ne_zero.mpr hrpm
    exact ⟨hc, rpm, hrpm', hwf, stepDelay_toNat hspr hrpm'⟩
  moveDelay _ := rfl

/-- MOVE is accepted: Stepping, with a valid delay (R133, R171). -/
theorem HandleInv.moveAccepted (inv : HandleInv p h) (hq : h.seq = .idle) (hc : h.constructed = true)
    (hv : h.stepDelayValid = true) (a : Address) (d : Direction) :
    HandleInv p { h with
      deviceAddress := a, direction := d, fsm := .stepping, seq := .mvEnergize } where
  __ := inv
  busyConstructed _ := hc
  fsmStepping := by simp [Seq.isMove]
  countDone _ _ := inv.countDone hc (by simp [hq, Seq.isLoop])
  moveDelay _ := hv

/-- Every host operation whose operands fit their ports keeps the handle's invariant (R131 to R137). -/
theorem HandleInv.hostOp (inv : HandleInv p h) (hq : h.seq = .idle) {i : Instr} (hwf : i.wf p)
    {t : State} (heffect : HostOpEffect i h t) : HandleInv p t.handle := by
  have accepted : HandleInv p (clearErr h) := inv.setErr false
  cases heffect with
  | refused hh => exact hh ▸ inv
  | construct delay d hi hspr hh => subst hi; exact hh ▸ .constructed hspr hwf _ delay d
  | setSpeed hi hrpm hc hh => subst hi; exact hh ▸ accepted.speedSet hc hrpm hwf
  | move hi hc hv hn hh => exact hh ▸ accepted.moveAccepted hq hc hv _ _
  | @release a hi hc hh =>
    exact hh ▸ (accepted.setAddress a).goto hq (fun _ => hc) rfl (.inr (.inl rfl))
  | changeAddress hc hh => exact hh ▸ accepted.goto hq (fun _ => hc) rfl (.inr (.inl rfl))
  | setFrequency hc hh => exact hh ▸ accepted.goto hq (fun _ => hc) rfl (.inr (.inl rfl))
  | queryVersion hh => exact hh ▸ accepted

end

/-- Every row's effect keeps the handle's invariant (R173). -/
theorem handleInv_rowEffect {s : State} (inv : HandleInv s.params s.handle)
    (hcount : s.handle.seq = .mvEnergize →
      s.held.stepCount.natAbs ≤ 2 ^ (s.params.stepW - 1)) :
    HandleInv s.params (rowEffect s).handle := by
  unfold rowEffect
  cases hq : s.handle.seq
  case idle | mvPoll => exact inv
  case mvEnergize => exact inv.energized hq (hcount hq)
  case mvEmit => exact inv.goto_busy hq (by decide) rfl (.inl rfl)
  case mvRelPwm | rlPwm => exact inv.goto_busy hq (by decide) rfl (.inr rfl)
  case mvRelCh => exact inv.moveDone hq
  case rlCh | fqSend => exact inv.goto_busy hq (by decide) rfl (.inr rfl)
  case caSend => exact (inv.setAddress _).goto_busy hq (by decide) rfl (.inr rfl)

/-! ### The machine's invariant under the step of each agent -/

/-- A state with nothing on the transport port and no sample standing meets the invariant when its handle,
its count and its trace do. -/
theorem Inv.of_quiet {t : State} (params : t.params.Ok) (handle : HandleInv t.params t.handle)
    (heldCount : t.handle.seq = .mvEnergize →
      t.held.stepCount.natAbs ≤ 2 ^ (t.params.stepW - 1))
    (oneRequest : t.handle.seq ≠ .idle → t.cmd = none) (hx : t.xp = .idle) (hs : t.sample = none)
    (traceEmittable : ∀ e ∈ t.trace, e.frame.emittable t.params.dutyFull = true) : Inv t where
  params := params
  handle := handle
  heldCount := heldCount
  oneRequest := oneRequest
  port f hf := by simp [hx] at hf
  completion ok hok := by simp [hx] at hok
  sampleUse c hc := by simp [hs] at hc
  traceEmittable := traceEmittable

/-- Only a poll with steps left has a sample standing (R174). -/
theorem Inv.sample_eq_none {s : State} (inv : Inv s)
    (hunused : s.handle.seq = .mvPoll → s.handle.stepsRemaining = 0) : s.sample = none := by
  cases hs : s.sample with
  | none => rfl
  | some c =>
    obtain ⟨hq, hr, -⟩ := inv.sampleUse c hs
    exact absurd (hunused hq) hr

/-- The host presents a request only to a ready block (R130). -/
theorem inv_hostStep {s : State} (inv : Inv s) (hq : s.handle.seq = .idle) : Inv (hostStep s) := by
  rw [hostStep_frame]
  exact { inv with oneRequest := fun hbusy => absurd hq hbusy }

/-- An accepted MOVE holds a count that fits the counter (R101, R133). -/
theorem heldCount_of_hostOpEffect {p : Params} {i : Instr} {h : MotorHandle} {t : State}
    (hq : h.seq = .idle) (hwf : i.wf p) (heffect : HostOpEffect i h t)
    (henergize : t.handle.seq = .mvEnergize) : t.held.stepCount.natAbs ≤ 2 ^ (p.stepW - 1) := by
  cases heffect with
  | move hi _ _ hn _ => subst hi; exact hn ▸ natAbs_le_of_move_wf hwf
  | refused hh | construct _ _ _ _ hh | setSpeed _ _ _ hh | release _ _ hh | changeAddress _ hh
  | setFrequency _ hh | queryVersion hh => simp [hh, clearErr, constructedHandle, hq] at henergize

/-- The request accepted is taken off the command port and its operation keeps the invariant (R130). -/
theorem inv_accept {s t : State} {r : HostRequest} (inv : Inv s) (hx : s.xp = .idle)
    (hq : s.handle.seq = .idle)
    (hexec : exec (decodeRequest s.params r) (s.setCmd none) = .next t) : Inv t := by
  have hop := decodeRequest_isHostOp s.params r
  have hwf := decodeRequest_wf inv.params r
  have heffect := exec_hostOp_effect hop hexec
  obtain ⟨hxp, htrace, hparams, -, hcmd, hsample, -⟩ := exec_hostOp hop hexec
  have hp : t.params = s.params := hparams
  refine .of_quiet ?_ ?_ ?_ (fun _ => hcmd) (hxp.trans hx)
    (hsample.trans (inv.sample_eq_none (by simp [hq]))) ?_ <;> rw [hp]
  · exact inv.params
  · exact inv.handle.hostOp hq hwf heffect
  · exact heldCount_of_hostOpEffect hq hwf heffect
  · rw [htrace]; exact inv.traceEmittable

/-- The answer to the row's frame puts one emittable event in the trace (R12, R103). -/
theorem inv_sendFrame {s : State} {f : Frame} (inv : Inv s) (hx : s.xp = .requested f) :
    Inv (sendFrame f s) := by
  have hf : rowFrame s = some f := inv.port f hx
  obtain hwait | ⟨ok, hanswered⟩ := sendFrame_cases f s
  · rw [hwait]
    exact { inv with
      port := fun g hg => by cases hg; exact hf
      completion := fun ok hok => by cases hok }
  · rw [hanswered]
    exact { inv with
      port := fun g hg => by cases hg
      completion := fun ok' hok => by cases hok; exact ⟨f, hf, by simp⟩
      traceEmittable := fun e he => by
        obtain hold | rfl : e ∈ s.trace ∨ e = { frame := f, ok := ok } := by simpa using he
        · exact inv.traceEmittable e hold
        · exact emittable_of_rowFrame hf }

/-- No row's effect leads to `MV_ENERGIZE` (R173). -/
theorem seq_rowEffect_ne_mvEnergize (s : State) : (rowEffect s).handle.seq ≠ .mvEnergize := by
  unfold rowEffect
  cases hq : s.handle.seq <;> simp [hq]

/-- Taking the completion of a row's frame keeps the invariant (R173). -/
theorem inv_takeCompletion {s : State} {ok : Bool} (inv : Inv s) (hx : s.xp = .answered ok) :
    Inv (takeCompletion ok s) := by
  obtain ⟨f, hf, -⟩ := inv.completion ok hx
  obtain ⟨hbusy, hpoll⟩ := seq_ne_of_rowFrame hf
  obtain ⟨hxp, htrace, hparams, -, -, -, hcmd, hsample⟩ := takeCompletion_frame ok s
  have heffect := takeCompletion_busy hbusy ok
  refine .of_quiet ?_ ?_ (fun hq => ?_) (fun _ => hcmd.trans (inv.oneRequest hbusy)) hxp
    (hsample.trans (inv.sample_eq_none fun hq => absurd hq hpoll)) ?_
  · rw [hparams]; exact inv.params
  · rw [hparams, heffect]
    exact handleInv_rowEffect (s := (s.setXp .idle).setHandle (noteErr ok s.handle))
      (inv.handle.setErr _) inv.heldCount
  · exact absurd (heffect ▸ hq) (seq_rowEffect_ne_mvEnergize _)
  · rw [htrace, hparams]; exact inv.traceEmittable

/-- The clock gives the poll in progress a sample of its own width (R244). -/
theorem inv_clockStep {s : State} (inv : Inv s) (hq : s.handle.seq = .mvPoll)
    (hr : s.handle.stepsRemaining ≠ 0) : Inv (clockStep s) :=
  { inv with
    sampleUse := fun c hc => by
      cases hc
      exact ⟨hq, hr, Nat.mod_lt _ (Nat.two_pow_pos _)⟩ }

/-- A poll keeps the invariant: it reads its sample, and leaves the loop only with no step remaining
(R174). -/
theorem inv_pollRow {s : State} (inv : Inv s) (hx : s.xp = .idle) (hq : s.handle.seq = .mvPoll) :
    Inv (pollRow s) := by
  have hcmd : s.cmd = none := inv.oneRequest (by simp [hq])
  obtain ⟨hr, hend⟩ | ⟨-, -, hwait⟩ | ⟨c, hr, hs, hgate⟩ := pollRow_cases s
  · rw [hend]
    refine .of_quiet inv.params ?_ (fun h => by cases h) (fun _ => hcmd) hx
      (inv.sample_eq_none fun _ => hr) inv.traceEmittable
    exact inv.handle.goto hq (fun _ => inv.handle.busyConstructed (by simp [hq])) rfl
      (.inr (.inr hr))
  · rw [hwait]; exact inv
  · obtain ⟨-, -, hc⟩ := inv.sampleUse c hs
    obtain ⟨-, hclosed⟩ | ⟨-, hopen⟩ := hgate
    · rw [hclosed]
      exact .of_quiet inv.params inv.handle inv.heldCount (fun _ => hcmd) hx rfl inv.traceEmittable
    · rw [hopen]
      exact .of_quiet inv.params (inv.handle.stepped hq hc) (fun h => by cases h) (fun _ => hcmd) hx
        rfl inv.traceEmittable

/-- Presenting the row's frame keeps the invariant (R62, R173). -/
theorem inv_present {s : State} {f : Frame} (inv : Inv s) (hf : rowFrame s = some f) :
    Inv (s.setXp (.requested f)) :=
  { inv with
    port := fun g hg => by cases hg; exact hf
    completion := fun ok hok => by cases hok }

/-- Settles O38: the step of each agent keeps the invariant. -/
theorem everyStepKeepsTheInvariant : Obligations.EveryStepKeepsTheInvariant := by
  intro s t inv h
  obtain ⟨-, hq, -, rfl⟩ | ⟨r, hx, hq, -, hexec⟩ | ⟨f, i, hx, -, -, rfl⟩ | ⟨ok, hx, rfl⟩ |
    ⟨-, hq, hr, -, rfl⟩ | ⟨hx, hq, rfl⟩ | ⟨f, -, hf, rfl⟩ := step_cases h
  · exact inv_hostStep inv hq
  · exact inv_accept inv hx hq hexec
  · exact inv_sendFrame inv hx
  · exact inv_takeCompletion inv hx
  · exact inv_clockStep inv hq hr
  · exact inv_pollRow inv hx hq
  · exact inv_present inv hf

/-! ### Reset -/

/-- The handle after reset meets its invariant because it is not constructed and not busy (R21, R38). -/
theorem handleInv_reset (p : Params) : HandleInv p .reset where
  busyConstructed hbusy := absurd rfl hbusy
  fsmStepping := by simp [MotorHandle.reset, Seq.isMove]
  sprRange hc := by cases hc
  indexRange hc := by cases hc
  timestampRange hc := by cases hc
  countRange hc := by cases hc
  countDone hc := by cases hc
  delayFormula hvalid := by cases hvalid
  moveDelay hmove := by cases hmove

theorem inv_reset : Inv State.reset :=
  .of_quiet (by decide) (handleInv_reset _) (fun h => by cases h) (fun _ => rfl) rfl rfl
    (fun e he => by cases he)

/-- Nothing has been commanded at reset, so the trace is at rest (R270). -/
theorem commandedInv_reset : CommandedInv State.reset where
  rest _ := by simp [atRest, State.reset, lastDuty, lastChannel]
  full h := by simp [State.reset, MotorHandle.reset, Seq.isLoop] at h
  off h := by simp [State.reset, MotorHandle.reset] at h
  low h := by simp [State.reset, MotorHandle.reset] at h

/-- Settles O37. -/
theorem invariantHoldsAtReset : Obligations.InvariantHoldsAtReset := ⟨inv_reset, commandedInv_reset⟩

end Sys2Proof

/-! ## The transport: frames outstanding, their answers and the traces (R61, R64, R70, R71, R76) -/

namespace Sys2Proof.Machine

/-! ### The frame outstanding and its answer -/

/-- Settles O9: one clause for each value of the transport port. -/
theorem stepRunsTheFrameCommand : Obligations.StepRunsTheFrameCommand :=
  ⟨fun _ _ _ => step_transport, fun _ _ => step_present, fun _ _ => step_completion⟩

/-- The frame of a frame command decodes to that command (R91, R93 to R96). -/
theorem decodeFrame_of_frame {i : Instr} {f : Frame} (h : i.frame? = some f) :
    decodeFrame f = .ok i := by
  cases i <;> simp only [Instr.frame?, reduceCtorEq, Option.some.injEq] at h <;> subst h
  case channelSet a pat =>
    have hhigh : (pat.zeroExtend 8).extractLsb' 4 4 = 0#4 := by ext j; simp
    have hlow : (pat.zeroExtend 8).extractLsb' 0 4 = pat := by
      rw [BitVec.extractLsb'_setWidth_of_le (by omega), BitVec.extractLsb'_eq_self]
    simp [decodeFrame, channelSetFrame, hhigh, hlow]
  case pwmSet a d => simp [decodeFrame, pwmSetFrame, opcodeByte]
  case addrChange a n m =>
    have hhigh : (n.zeroExtend 8).extractLsb' 7 1 = 0#1 := by ext j; simp
    have hlow : (n.zeroExtend 8).extractLsb' 0 7 = n := by
      rw [BitVec.extractLsb'_setWidth_of_le (by omega), BitVec.extractLsb'_eq_self]
    simp [decodeFrame, addrChangeFrame, opcodeByte, hhigh, hlow]
  case freqSet a v => simp [decodeFrame, freqSetFrame, opcodeByte]

/-- A step with a frame outstanding is one `SendFrame` of it (R61). -/
theorem step_requested {s t : State} {f : Frame} (h : step s = .next t)
    (hx : s.xp = .requested f) : t = sendFrame f s := by
  obtain ⟨hport, -⟩ | ⟨r, hport, -⟩ | ⟨g, i, hport, -, -, rfl⟩ | ⟨ok, hport, -⟩ | ⟨hport, -⟩ |
    ⟨hport, -⟩ | ⟨g, hport, -⟩ := step_cases h <;> rw [hx] at hport <;> cases hport
  rfl

/-- An answer placed first in the list is the one a frame gets (R11, R76). -/
theorem sendFrame_of_answers {s : State} {a : Option Bool} {rest : List (Option Bool)}
    (h : s.env.answers = a :: rest) (f : Frame) :
    sendFrame f s = complete f a (s.setEnv { s.env with answers := rest }) := by
  simp [sendFrame, drawAnswer, h]

/-- Settles O22: the answer `none` is used up, and the request stands on the port as it did. -/
theorem unansweredFrameStaysOutstanding : Obligations.UnansweredFrameStaysOutstanding := by
  intro s i f rest hi hnone
  have hexec : exec i s =
      .next { s with xp := .requested f, env := { s.env with answers := rest } } := by
    rw [exec_frame hi, sendFrame_of_answers hnone]
    rfl
  refine ⟨hexec, fun hx => ?_⟩
  rw [step_transport hx (decodeFrame_of_frame hi), hexec, ← hx]

/-! ### The host operations leave the ports -/

/-- An operation whose body leaves the other agents alone does so whether accepted or refused (R130). -/
theorem env_of_acceptOp {needs ok : Bool} {body : State → State} {s t : State}
    (h : acceptOp needs ok body s = .next t) (hbody : ∀ u, (body u).env = u.env) :
    t.env = s.env := by
  obtain ⟨-, ⟨-, -, rfl⟩ | ⟨-, -, rfl⟩ | ⟨-, -, rfl⟩⟩ := acceptOp_cases h
  · rfl
  · rfl
  · exact hbody _

/-- A host operation that is no CONSTRUCT leaves the other agents' data (R131 to R137; log 2). -/
theorem construct_or_env_of_exec_hostOp {i : Instr} (hi : i.isHostOp) {s t : State}
    (h : exec i s = .next t) : (∃ spr a, i = .construct spr a) ∨ t.env = s.env := by
  cases i <;> simp only [exec, execSetSpeed, execMove, execRelease, execChangeAddress,
    execSetFrequency, execQueryVersion, execReserved7] at h
  case construct spr a => exact .inl ⟨spr, a, rfl⟩
  case reserved7 =>
    split at h <;> cases h
    exact .inr rfl
  case channelSet | pwmSet | addrChange | freqSet => cases hi
  all_goals exact .inr (env_of_acceptOp h fun _ => rfl)

/-- Settles O20: of the other agents only CONSTRUCT touches anything, its draw counter. -/
theorem hostOperationsFrame : Obligations.HostOperationsFrame := by
  intro i s t hi h
  obtain ⟨hxp, htrace, hparams, htransport, hcmd, hsample, henv⟩ := exec_hostOp hi h
  refine ⟨htrace, hxp, hcmd, hsample, hparams, htransport, henv, fun hdrawn => ?_⟩
  exact (construct_or_env_of_exec_hostOp hi h).resolve_right
    fun hsame => hdrawn (congrArg Env.freeDraws hsame)

/-! ### The trace of one handle -/

/-- A frame sent adds its event with the completion on the port, or stays outstanding (R12, R61). -/
theorem trace_sendFrame (f : Frame) (s : State) :
    (sendFrame f s).trace = s.trace ∨
      ∃ ok, (sendFrame f s).xp = .answered ok ∧
        (sendFrame f s).trace = s.trace ++ [{ frame := f, ok := ok }] := by
  obtain houtstanding | ⟨ok, hanswered⟩ := sendFrame_cases f s
  · exact .inl (by rw [houtstanding]; rfl)
  · exact .inr ⟨ok, by rw [hanswered]; exact ⟨rfl, rfl⟩⟩

/-- Settles O41: of the four agents only the transport adds an event. -/
theorem traceGrowsByTheRowsFrame : Obligations.TraceGrowsByTheRowsFrame := by
  intro s t h
  cases hg : turn s <;> have hstep := agentStep_of_turn h hg
  case host =>
    cases hstep
    exact .inl (by rw [hostStep_frame])
  case sequencer => exact .inl (sequencerStep_trace_env hstep).1
  case transport =>
    obtain rfl | ⟨f, hx, rfl⟩ := transportStep_cases hstep
    · exact .inl rfl
    · obtain hquiet | ⟨ok, hok, htrace⟩ := trace_sendFrame f s
      · exact .inl hquiet
      · exact .inr ⟨f, ok, hx, hok, htrace⟩
  case clock =>
    cases hstep
    exact .inl rfl

/-- A step leaves the events already in the trace as they are (R64, R70). -/
theorem trace_prefix_of_step {s t : State} (h : step s = .next t) : s.trace <+: t.trace := by
  obtain hquiet | ⟨f, ok, -, -, htrace⟩ := traceGrowsByTheRowsFrame s t h
  · rw [hquiet]
  · rw [htrace]; exact List.prefix_append _ _

/-! ### The answer and the error -/

/-- Two states that differ at most in `op_err` and in the status of their responses (R76). -/
def SameButError (t u : State) : Prop :=
  t.responses.map Response.value = u.responses.map Response.value ∧
    { t with handle := { t.handle with opErr := false }, responses := [] } =
      ({ u with handle := { u.handle with opErr := false }, responses := [] } : State)

/-- A row does the same whatever `op_err` says, but for the status it responds (R76, R240). -/
theorem sameButError_rowEffect (s : State) (e e' : Bool) :
    SameButError (rowEffect (s.setHandle { s.handle with opErr := e }))
      (rowEffect (s.setHandle { s.handle with opErr := e' })) := by
  simp only [rowEffect, State.handle_setHandle]
  cases s.handle.seq <;> exact ⟨by simp, rfl⟩

/-- The two completions of a frame make the same of the state but for the error (R76, R239). -/
theorem sameButError_takeCompletion (s : State) :
    SameButError (takeCompletion true s) (takeCompletion false s) := by
  by_cases hq : s.handle.seq = .idle
  · rw [takeCompletion_ready hq, takeCompletion_ready hq]
    exact ⟨rfl, rfl⟩
  · rw [takeCompletion_busy hq, takeCompletion_busy hq]
    exact sameButError_rowEffect (s.setXp .idle) _ _

/-- Settles O55: at the transport the answer stands in the completion and the event alone, and of the two
completions the sequencer makes the same but for the error. -/
theorem answerChangesOnlyTheError : Obligations.AnswerChangesOnlyTheError := by
  constructor
  · intro s t u f rest hx ht hu
    rw [step_requested ht hx, step_requested hu hx, sendFrame_of_answers rfl,
      sendFrame_of_answers rfl]
    exact ⟨rfl, rfl, rfl, rfl, rfl⟩
  · intro s t u ht hu
    rw [step_completion rfl] at ht hu
    cases ht
    cases hu
    exact sameButError_takeCompletion s

/-! ### The shared trace of several handles -/

/-- A handle that moves puts its new events at the end of its part of the shared trace (R71). -/
theorem System.busOf_update_self (y : System) (k : Nat) (s t : State) :
    (y.update k s t).busOf k = y.busOf k ++ newEvents s t := by
  simp [System.busOf, System.update, List.filter_map, Function.comp_def]

/-- Another handle's part of the shared trace stays as it is (R71). -/
theorem System.busOf_update_ne (y : System) {j k : Nat} (hj : j ≠ k) (s t : State) :
    (y.update k s t).busOf j = y.busOf j := by
  simp [System.busOf, System.update, List.filter_map, Function.comp_def, hj.symm]

/-- The events of a trace that has grown are those it had, then the new ones. -/
theorem trace_append_newEvents {s t : State} (h : s.trace <+: t.trace) :
    s.trace ++ newEvents s t = t.trace := List.prefix_iff_eq_append.mp h

/-- The shared trace holds of each handle the events of its own trace, in their order (R71). -/
def System.BusAgrees (y : System) : Prop :=
  ∀ k s, y.handles[k]? = some s → y.busOf k = s.trace

/-- A step of any handle keeps the shared trace in agreement with every handle's own (R71). -/
theorem System.busAgrees_step {y z : System} {k : Nat} (agrees : y.BusAgrees)
    (h : y.step k = .next z) : z.BusAgrees := by
  obtain ⟨-, rfl⟩ | ⟨s, t, hs, hstep, rfl⟩ := System.step_cases h
  · exact agrees
  · intro j u hu
    obtain rfl | hj := eq_or_ne j k
    · have hlt : j < y.handles.length := (List.getElem?_eq_some_iff.mp hs).1
      have hnew : (y.handles.set j t)[j]? = some t := List.getElem?_set_self hlt
      obtain rfl : t = u := Option.some.inj (hnew.symm.trans hu)
      have hgrown : s.trace <+: t.trace := trace_prefix_of_step (s := joinAt j y.clock s) hstep
      rw [System.busOf_update_self, agrees j s hs, trace_append_newEvents hgrown]
    · have hsame : y.handles[j]? = some u := (List.getElem?_set_ne hj.symm).symm.trans hu
      rw [System.busOf_update_ne y hj, agrees j u hsame]

/-- A run is the step of the schedule's first handle, then the rest of the run. -/
theorem System.run_cons {y z : System} {k : Nat} {ks : List Nat} (h : y.run (k :: ks) = .next z) :
    ∃ w, y.step k = .next w ∧ w.run ks = .next z := by
  unfold System.run at h
  cases hw : y.step k <;> simp only [hw, reduceCtorEq] at h
  exact ⟨_, rfl, h⟩

/-- What every step of a system keeps, every run by a schedule keeps. -/
theorem System.run_keeps {P : System → Prop}
    (keeps : ∀ {y z : System} {k : Nat}, P y → y.step k = .next z → P z)
    {y z : System} {ks : List Nat} (hy : P y) (h : y.run ks = .next z) : P z := by
  induction ks generalizing y with
  | nil =>
    cases h
    exact hy
  | cons k ks ih =>
    obtain ⟨w, hstep, hrest⟩ := System.run_cons h
    exact ih (keeps hy hstep) hrest

/-- Settles O56: every step keeps the agreement, so every run does. -/
theorem globalTraceInterleavesHandleTraces : Obligations.GlobalTraceInterleavesHandleTraces :=
  fun _ _ _ agrees hrun => System.run_keeps (P := System.BusAgrees) System.busAgrees_step agrees hrun

end Sys2Proof.Machine

/-! ## The encodings: requests, frames and their words (R91 to R104) -/

namespace Sys2Proof

open Machine

/-! ### A request's operands in their slots (R100, R101) -/

/-- The model's signed slot is the two's complement of `BitVec` (R9, R101). -/
theorem signedField_eq_toInt (w v : Nat) : signedField w v = (BitVec.ofNat w v).toInt := by
  simp [signedField, truncTo, BitVec.toInt_eq_toNat_cond]

theorem signedBits_eq_toNat (w : Nat) (n : Int) : signedBits w n = (BitVec.ofInt w n).toNat := by
  simp [signedBits]

/-- A signed integer in range is read back from its slot (R101). -/
theorem signedField_signedBits {w : Nat} (hw : 1 ≤ w) {n : Int} (hlow : -2 ^ (w - 1) ≤ n)
    (hhigh : n < 2 ^ (w - 1)) : signedField w (signedBits w n) = n := by
  rw [signedField_eq_toInt, signedBits_eq_toNat, BitVec.ofNat_toNat, BitVec.setWidth_eq,
    BitVec.toInt_ofInt_eq_self hw hlow hhigh]

@[simp] theorem directionOfSlot_directionBit (d : Direction) :
    directionOfSlot (directionBit d) = d := by cases d <;> rfl

@[simp] theorem boolOfSlot_toNat (b : Bool) : boolOfSlot b.toNat = b := by cases b <;> rfl

/-- A host operation in the range of its ports is read back from its request (R100, R101). -/
theorem decode_encode_hostOp {p : Params} {i : Instr} (hp : p.Ok) (hi : i.isHostOp)
    (hwf : i.wf p) : decode p (encode p i) = .ok i := by
  obtain ⟨-, -, hstep, -⟩ := hp
  cases i <;> simp only [encode, decode, decodeRequest, Except.ok.injEq]
  case construct spr a => simp [truncTo, Nat.mod_eq_of_lt hwf]
  case setSpeed rpm => simp [truncTo, Nat.mod_eq_of_lt hwf]
  case move a n d =>
    obtain ⟨hlow, hhigh⟩ := hwf
    simp [signedField_signedBits hstep hlow hhigh]
  case channelSet | pwmSet | addrChange | freqSet => cases hi
  all_goals simp

/-- The raw form of a frame command is the frame it sends (R91). -/
theorem encode_of_frame (p : Params) {i : Instr} {f : Frame} (h : i.frame? = some f) :
    encode p i = .frame f := by
  cases i <;> cases h <;> rfl

/-- Settles O1: a host operation is read back slot by slot, a frame command from its frame. -/
theorem decodeOfEncodeIsTheInstruction : Obligations.DecodeOfEncodeIsTheInstruction := by
  intro p i hp hwf
  cases hi : i.frame? with
  | none => exact decode_encode_hostOp hp hi hwf
  | some f =>
    rw [encode_of_frame p hi]
    exact decodeFrame_of_frame hi

/-- Settles O4: operands of a width are truncated to it. -/
theorem presentedRequestFitsItsPort : Obligations.PresentedRequestFitsItsPort :=
  fun _ r hp => decodeRequest_wf hp r

/-- Settles O5: each selector is an arm of the decoder, and each slot reads as R101 says. -/
theorem selectorNamesTheOperation : Obligations.SelectorNamesTheOperation :=
  fun _ _ _ _ => ⟨rfl, rfl, rfl, rfl, rfl, rfl, rfl, rfl⟩

/-! ### Frames and their commands (R91 to R96, R103) -/

/-- Settles O2: the two directions are the frame decoder's soundness and completeness. -/
theorem frameBytesDecodeExactlyToTheirCommand :
    Obligations.FrameBytesDecodeExactlyToTheirCommand :=
  fun _ _ => ⟨decodeFrame_frame, decodeFrame_of_frame⟩

/-- The bits from `k` up are zero exactly when the number is below `2 ^ k`. -/
theorem extractLsb'_high_eq_zero_iff {w k n : Nat} (h : k + n = w) (x : BitVec w) :
    x.extractLsb' k n = 0#n ↔ x.toNat < 2 ^ k := by
  have hdiv : x.toNat / 2 ^ k < 2 ^ n :=
    Nat.div_lt_of_lt_mul (by rw [← Nat.pow_add, h]; exact x.isLt)
  rw [← BitVec.toNat_inj, BitVec.extractLsb'_toNat, Nat.shiftRight_eq_div_pow,
    Nat.mod_eq_of_lt hdiv, BitVec.toNat_ofNat, Nat.zero_mod, Nat.div_eq_zero_iff]
  simp

/-- The upper nibble of a byte is zero exactly when the byte is below 16 (R93). -/
theorem upperNibble_eq_zero_iff (b : Byte) : b.extractLsb' 4 4 = 0#4 ↔ b.toNat < 16 :=
  extractLsb'_high_eq_zero_iff (by rfl) b

/-- Bit 7 of a byte is zero exactly when the byte is below 128 (R96). -/
theorem bit7_eq_zero_iff (b : Byte) : b.extractLsb' 7 1 = 0#1 ↔ b.toNat < 128 :=
  extractLsb'_high_eq_zero_iff (by rfl) b

/-- Settles O7: under each fault's conditions one branch of the decoder is left. -/
theorem foreignFramesAreRejectedByName : Obligations.ForeignFramesAreRejectedByName := by
  intro f
  refine ⟨fun hAA h82 h83 h84 => ?_, fun hb1 hhigh => ?_, fun hb1 hlow hpad => ?_,
    fun hb1 hduty => ?_, fun hb1 hhigh => ?_, fun hb1 hpad => ?_⟩
  · simp [decodeFrame, opcodeByte, hAA, h82, h83, h84]
  · simp [decodeFrame, opcodeByte, hb1, upperNibble_eq_zero_iff, hhigh]
  · simp [decodeFrame, opcodeByte, paddingByte, hb1, upperNibble_eq_zero_iff, hlow, hpad]
  · simp [decodeFrame, opcodeByte, hb1, hduty]
  · simp [decodeFrame, opcodeByte, hb1, bit7_eq_zero_iff, hhigh]
  · simp [decodeFrame, opcodeByte, paddingByte, hb1, hpad]

/-! ### The frame as one word (R91) -/

/-- The three bytes stand in the word as R91 places them. -/
theorem frameWord_bytes (f : Frame) :
    (frameWord f).extractLsb' 16 8 = f.b1 ∧ (frameWord f).extractLsb' 8 8 = f.b2 ∧
      (frameWord f).extractLsb' 0 8 = f.b3 := by
  unfold frameWord
  refine ⟨?_, ?_, ?_⟩
  · rw [BitVec.extractLsb'_append_eq_of_le (by omega),
      BitVec.extractLsb'_append_eq_of_le (by omega)]
    exact BitVec.extractLsb'_eq_self
  · rw [BitVec.extractLsb'_append_eq_of_le (by omega),
      BitVec.extractLsb'_append_eq_of_add_le (by omega)]
    exact BitVec.extractLsb'_eq_self
  · rw [BitVec.extractLsb'_append_eq_of_add_le (by omega)]
    exact BitVec.extractLsb'_eq_self

/-- A word is its three bytes joined (R91). -/
theorem frameWord_frameOfWord (a : Address) (w : BitVec 24) : frameWord (frameOfWord a w) = w := by
  unfold frameWord frameOfWord
  rw [BitVec.extractLsb'_append_extractLsb'_eq_extractLsb' (by rfl),
    BitVec.extractLsb'_append_extractLsb'_eq_extractLsb' (by rfl)]
  exact BitVec.extractLsb'_eq_self

/-- Settles O3: the bytes read back from the word are those of the frame, so nothing is lost. -/
theorem frameWordHoldsTheThreeBytes : Obligations.FrameWordHoldsTheThreeBytes := by
  refine ⟨frameWord_bytes, fun f => ?_, frameWord_frameOfWord⟩
  obtain ⟨hb1, hb2, hb3⟩ := frameWord_bytes f
  simp only [frameOfWord, hb1, hb2, hb3]

/-- Settles O6: each word is evaluated. -/
theorem vectorWordsDecode : Obligations.VectorWordsDecode := by
  unfold Obligations.VectorWordsDecode
  decide

/-! ### Refusal as ILLEGAL_OP (R104, R234) -/

/-- A refused operation leaves its response and nothing else (R10, R238). -/
theorem respond_eq_answer (st : Status) (s : State) : respond st s = s.answer st := rfl

/-- A ready block refuses every operation that needs a constructed handle it lacks (R130, R234). -/
theorem acceptOp_unconstructed {ok : Bool} {body : State → State} {s : State}
    (hs : s.handle.seq = .idle) (hc : s.handle.constructed = false) :
    acceptOp true ok body s = .next (s.answer .illegalOp) := by
  simp [acceptOp, State.busy, hs, hc, respond_eq_answer]

/-- Settles O17: selector 7 has no operation, and the five others fail the first check of R130. -/
theorem illegalOpChangesNothing : Obligations.IllegalOpChangesNothing := by
  refine ⟨fun p r hr => ?_, fun s hs => ⟨?_, fun hc => ?_⟩⟩
  · simp [decodeRequest, hr]
  · simp [exec, execReserved7, State.busy, hs, respond_eq_answer]
  · simp only [exec, execSetSpeed, execMove, execRelease, execChangeAddress, execSetFrequency,
      acceptOp_unconstructed hs hc, implies_true, and_self]

end Sys2Proof

/-! ## The IDLE row: the host operations accepted, refused and answered (R130 to R137, R173) -/

namespace Sys2Proof.Machine

/-! ### The command port (R130, R276) -/

/-- Settles O8. -/
theorem stepRunsThePresentedRequest : Obligations.StepRunsThePresentedRequest :=
  fun _ _ ⟨hq, hx⟩ hc => step_accept hq hx hc

/-- What a step of a block that is not ready leaves: the command port and the host's list (R130, R276). -/
theorem step_cmd_program_of_not_ready {s t : State} (h : step s = .next t) (hs : ¬ s.ready) :
    t.cmd = s.cmd ∧ t.env.program = s.env.program := by
  obtain ⟨hx, hq, -, -⟩ | ⟨r, hx, hq, -, -⟩ | ⟨f, i, -, -, -, rfl⟩ | ⟨ok, -, rfl⟩ |
    ⟨-, -, -, -, rfl⟩ | ⟨-, -, rfl⟩ | ⟨f, -, -, rfl⟩ := step_cases h
  · exact absurd ⟨hq, hx⟩ hs
  · exact absurd ⟨hq, hx⟩ hs
  · rw [sendFrame_frame]; exact ⟨rfl, rfl⟩
  · obtain ⟨-, -, -, -, henv, -, hcmd, -⟩ := takeCompletion_frame ok s
    exact ⟨hcmd, congrArg Env.program henv⟩
  · rw [clockStep_frame]; exact ⟨rfl, rfl⟩
  · rw [pollRow_frame]; exact ⟨rfl, rfl⟩
  · exact ⟨rfl, rfl⟩

/-- A ready block with nothing on its command port takes the host's step (R130; log 7). -/
theorem step_host {s : State} (hs : s.ready) (hc : s.cmd = none) : step s = .next (hostStep s) := by
  obtain ⟨hq, hx⟩ := hs
  simp [step, agentStep, turn, hq, hx, hc]

/-- The host's step presents the head of the host's list, if there is one (R11; log 7). -/
theorem hostStep_cmd_program {s : State} (hc : s.cmd = none) :
    (hostStep s).cmd = s.env.program.head? ∧ (hostStep s).env.program = s.env.program.tail := by
  obtain ⟨hnil, hwait⟩ | ⟨r, rest, hcons, hpresent⟩ := hostStep_cases s
  · rw [hwait, hnil]; exact ⟨hc, rfl⟩
  · rw [hpresent, hcons]; exact ⟨rfl, rfl⟩

/-- Settles O11: the three states of the block and its command port. -/
theorem requestTakenOnlyWhenReady : Obligations.RequestTakenOnlyWhenReady := by
  intro s t h
  refine ⟨step_cmd_program_of_not_ready h, fun hs hc => ?_, fun ⟨hq, hx⟩ hc => ?_⟩
  · rw [step_host hs hc] at h
    cases h
    exact hostStep_cmd_program hc
  · obtain ⟨r, hr⟩ := Option.ne_none_iff_exists'.mp hc
    rw [step_accept hq hx hr] at h
    obtain ⟨-, -, -, -, hcmd, -, henv⟩ := exec_hostOp (decodeRequest_isHostOp s.params r) h
    exact ⟨hcmd, by rw [henv]; rfl⟩

/-! ### Refusal (R130, R231) -/

/-- A busy block refuses every operation (R130, D26). -/
theorem acceptOp_busy {needs ok : Bool} {body : State → State} {s : State}
    (hs : s.handle.seq ≠ .idle) : acceptOp needs ok body s = .refused .portNotReady := by
  simp [acceptOp, State.busy, hs]

/-- Settles O19. -/
theorem busyBlockTakesNoOperation : Obligations.BusyBlockTakesNoOperation := by
  intro i s hi hs
  cases i <;> simp only [exec, execConstruct, execSetSpeed, execMove, execRelease,
    execChangeAddress, execSetFrequency, execQueryVersion, execReserved7]
  case reserved7 => simp [State.busy, hs]
  case channelSet | pwmSet | addrChange | freqSet => cases hi
  all_goals exact acceptOp_busy hs

/-- A ready block answers a failed configuration check with CONFIG_ERROR and does nothing else (R130,
R231). -/
theorem acceptOp_misconfigured {needs : Bool} {body : State → State} {s : State}
    (hs : s.handle.seq = .idle) (hn : needs = true → s.handle.constructed = true) :
    acceptOp needs false body s = .next (s.answer .configError) := by
  cases needs <;> simp_all [acceptOp, State.busy, respond_eq_answer]

/-! ### The operations accepted -/

/-- Settles O12: the draw counter gives the two values R38 leaves open. -/
theorem constructInitialisesTheHandle : Obligations.ConstructInitialisesTheHandle := by
  refine ⟨fun p r hr ha _ => ?_, fun s spr a hs => ⟨?_, fun hspr => ?_⟩⟩
  · simp [decodeRequest, hr, truncTo, Nat.mod_eq_of_lt ha]
  · rintro rfl
    unfold exec execConstruct
    exact acceptOp_misconfigured hs nofun
  · unfold exec execConstruct
    exact ⟨_, _, _, acceptOp_accepts hs nofun (by simpa using hspr), rfl, rfl, rfl, rfl, rfl⟩

/-- Settles O13: the quotient is below `2^16`, so that the delay register holds it whole. -/
theorem setSpeedSetsTheTruncatedDelay : Obligations.SetSpeedSetsTheTruncatedDelay := by
  refine ⟨fun p r hr ha => ?_, fun s rpm hs hc => ⟨?_, fun hrpm hspr => ?_⟩⟩
  · simp [decodeRequest, hr, truncTo, Nat.mod_eq_of_lt ha]
  · rintro rfl
    unfold exec execSetSpeed
    exact acceptOp_misconfigured hs fun _ => hc
  · have hdelay : (stepDelay s.handle.stepsPerRevolution rpm).toNat =
        60000 / (s.handle.stepsPerRevolution * rpm) := stepDelay_toNat hspr hrpm
    refine ⟨_, hdelay, hdelay.trans (Nat.div_div_eq_div_mul _ _ _).symm, fun hlarge => ?_, ?_⟩
    · exact BitVec.eq_of_toNat_eq (hdelay.trans (Nat.div_eq_of_lt hlarge))
    · unfold exec execSetSpeed
      exact acceptOp_accepts hs (fun _ => hc) (by simpa using Nat.one_le_iff_ne_zero.mp hrpm)

/-- Settles O14. -/
theorem moveEntersStepping : Obligations.MoveEntersStepping := by
  intro s a n d hs hc
  unfold exec execMove
  refine ⟨fun hv => ?_, acceptOp_accepts hs fun _ => hc⟩
  rw [hv]
  exact acceptOp_misconfigured hs fun _ => hc

/-- The state of an accepted MOVE (R133, R173). -/
def moveAccepted (a : Address) (n : Int) (d : Direction) (s : State) : State :=
  { s with
    handle := { s.handle with
      deviceAddress := a
      direction := d
      fsm := .stepping
      seq := .mvEnergize
      opErr := false }
    held := { s.held with stepCount := n } }

/-- A handle that can move accepts every MOVE (R133). -/
theorem exec_move_of_canMove {s : State} (hq : s.handle.seq = .idle) (hs : s.canMove) (a : Address)
    (n : Int) (d : Direction) : exec (.move a n d) s = .next (moveAccepted a n d s) := by
  obtain ⟨hc, hv⟩ := hs
  obtain ⟨-, haccepted⟩ := moveEntersStepping s a n d hq hc
  exact haccepted hv

/-- Settles O15. -/
theorem frameOperationsAreAccepted : Obligations.FrameOperationsAreAccepted := by
  intro s hs hc
  unfold exec execRelease execChangeAddress execSetFrequency
  exact ⟨fun _ => acceptOp_accepts hs (fun _ => hc) rfl,
    fun _ _ _ => acceptOp_accepts hs (fun _ => hc) rfl,
    fun _ _ => acceptOp_accepts hs (fun _ => hc) rfl⟩

/-- Settles O16: the value is `VERSION`. -/
theorem queryVersionRespondsTheConstant : Obligations.QueryVersionRespondsTheConstant := by
  refine ⟨Config.version, fun s hs => ?_⟩
  unfold exec execQueryVersion
  exact acceptOp_accepts hs nofun rfl

/-! ### Responses (R130, R233, R237) -/

/-- What a step delivers: nothing, or one response with which the block is not busy, whose status is
never RANGE_ERROR and whose value, if any, is `VERSION` with OK. -/
def DeliversAtMostOne (s t : State) : Prop :=
  t.responses = s.responses ∨
    ∃ r, t.responses = s.responses ++ [r] ∧ t.handle.seq = .idle ∧
      r.status ≠ .rangeError ∧ (r.value ≠ none → r.status = .ok ∧ r.value = some Config.version)

/-- A response without a value, of a status other than RANGE_ERROR, is such a response. -/
theorem deliversAtMostOne_of_status {s t : State} {st : Status} (hst : st ≠ .rangeError)
    (hq : t.handle.seq = .idle)
    (hr : t.responses = s.responses ++ [{ status := st, value := none }]) : DeliversAtMostOne s t :=
  .inr ⟨_, hr, hq, hst, fun hv => absurd rfl hv⟩

/-- An operation under the checks of R130 delivers at most one response when its body does. -/
theorem deliversAtMostOne_of_acceptOp {needs ok : Bool} {body : State → State} {s t : State}
    (h : acceptOp needs ok body s = .next t)
    (hbody : s.handle.seq = .idle → DeliversAtMostOne s (body (s.setHandle (clearErr s.handle)))) :
    DeliversAtMostOne s t := by
  obtain ⟨hs, ⟨-, -, rfl⟩ | ⟨-, -, rfl⟩ | ⟨-, -, rfl⟩⟩ := acceptOp_cases h
  · exact deliversAtMostOne_of_status (by decide) hs rfl
  · exact deliversAtMostOne_of_status (by decide) hs rfl
  · exact hbody hs

/-- A host operation delivers at most one response in its `IDLE` row (R130). -/
theorem deliversAtMostOne_exec_hostOp {i : Instr} (hi : i.isHostOp) {s t : State}
    (h : exec i s = .next t) : DeliversAtMostOne s t := by
  cases i <;> simp only [exec, execConstruct, execSetSpeed, execMove, execRelease,
    execChangeAddress, execSetFrequency, execQueryVersion, execReserved7] at h
  case construct =>
    exact deliversAtMostOne_of_acceptOp h fun _ => deliversAtMostOne_of_status (by decide) rfl rfl
  case setSpeed =>
    exact deliversAtMostOne_of_acceptOp h fun hs => deliversAtMostOne_of_status (by decide) hs rfl
  case move | release | changeAddress | setFrequency =>
    exact deliversAtMostOne_of_acceptOp h fun _ => .inl rfl
  case queryVersion =>
    exact deliversAtMostOne_of_acceptOp h fun hs =>
      .inr ⟨_, rfl, hs, by decide, fun _ => ⟨rfl, rfl⟩⟩
  case reserved7 =>
    split at h <;> rename_i hs <;> cases h
    exact deliversAtMostOne_of_status (by decide) (by simpa [State.busy] using hs) rfl
  case channelSet | pwmSet | addrChange | freqSet => cases hi

/-- The status of an operation that took rows is OK or TRANSPORT_ERROR (R232). -/
theorem opStatus_ne_rangeError (h : MotorHandle) : opStatus h ≠ .rangeError := by
  unfold opStatus; split <;> decide

/-- The row that ends an operation delivers its one response, and no other row any (R173). -/
theorem deliversAtMostOne_rowEffect (s : State) : DeliversAtMostOne s (rowEffect s) := by
  unfold rowEffect
  cases s.handle.seq
  case mvRelCh | rlCh | caSend | fqSend =>
    exact deliversAtMostOne_of_status (opStatus_ne_rangeError _) rfl rfl
  all_goals exact .inl rfl

/-- Settles O42: only an operation accepted or refused and a row's completion deliver a response. -/
theorem oneResponseEndsAnOperation : Obligations.OneResponseEndsAnOperation := by
  intro s t h
  obtain ⟨-, -, -, rfl⟩ | ⟨r, -, -, -, hexec⟩ | ⟨f, i, -, -, -, rfl⟩ | ⟨ok, -, rfl⟩ |
    ⟨-, -, -, -, rfl⟩ | ⟨-, -, rfl⟩ | ⟨f, -, -, rfl⟩ := step_cases h
  · exact .inl (by rw [hostStep_frame])
  · have hop := decodeRequest_isHostOp s.params r
    exact deliversAtMostOne_exec_hostOp (s := s.setCmd none) hop hexec
  · exact .inl (by rw [sendFrame_frame])
  · by_cases hq : s.handle.seq = .idle
    · exact .inl (by rw [takeCompletion_ready hq]; rfl)
    · rw [takeCompletion_busy hq]
      exact deliversAtMostOne_rowEffect ((s.setXp .idle).setHandle (noteErr ok s.handle))
  · exact .inl rfl
  · exact .inl (by rw [pollRow_frame])
  · exact .inl rfl

end Sys2Proof.Machine

/-! ## Whole operations: the frames a busy block still owes, and the handle it will leave (R133 to R136,
R138, R142)

The frames and the handle an operation ends with stand in every state of its run (`framesFrom`,
`endHandle`). Each step of the run keeps them: it sends the next frame owed, or changes neither. -/

namespace Sys2Proof

open Machine

/-! ### What a state inside an operation still owes -/

/-- The frames of the present row and of the rows that follow it (R133 to R136, R173). -/
def framesFrom (s : State) : List Frame :=
  match s.handle.seq with
  | .idle => []
  | .mvEnergize => moveFrames s.params s.handle.deviceAddress s.handle.stepsPerRevolution
      s.handle.direction s.held.stepCount.natAbs s.handle.currentPhaseIndex
  | .mvPoll => stepFrames s.handle.deviceAddress s.handle.stepsPerRevolution s.handle.direction
      s.handle.stepsRemaining s.handle.currentPhaseIndex ++ releaseFrames s.handle.deviceAddress
  | .mvEmit => channelSetFrame s.handle.deviceAddress (patternOf s.handle.currentPhaseIndex) ::
      (stepFrames s.handle.deviceAddress s.handle.stepsPerRevolution s.handle.direction
        s.handle.stepsRemaining s.handle.currentPhaseIndex ++ releaseFrames s.handle.deviceAddress)
  | .mvRelPwm | .rlPwm => releaseFrames s.handle.deviceAddress
  | .mvRelCh | .rlCh => [channelSetFrame s.handle.deviceAddress patternOff]
  | .caSend =>
    [addrChangeFrame s.held.currentAddress s.held.newAddress (markerByte (markerOf s.held.persist))]
  | .fqSend => [freqSetFrame s.held.freqAddress s.held.prescaler]

/-- The frames not yet in the trace: the present row's is, once it is answered (R12). -/
def framesOwed (s : State) : List Frame :=
  match s.xp with
  | .answered _ => (framesFrom s).tail
  | .requested _ | .idle => framesFrom s

/-- The steps not yet taken (R28, R133). -/
def stepsOwed (s : State) : Nat :=
  match s.handle.seq with
  | .mvEnergize => s.held.stepCount.natAbs
  | .mvPoll | .mvEmit => s.handle.stepsRemaining
  | .idle | .mvRelPwm | .mvRelCh | .rlPwm | .rlCh | .caSend | .fqSend => 0

/-- The handle the operation will leave, but for the timestamp and `op_err` (R133 to R136, R139). -/
def endHandle (s : State) : MotorHandle :=
  match s.handle.seq with
  | .idle => s.handle
  | .mvEnergize | .mvPoll | .mvEmit =>
    { s.handle with
      currentPhaseIndex := indexAfter s.handle.stepsPerRevolution s.handle.direction (stepsOwed s)
        s.handle.currentPhaseIndex
      stepsRemaining := 0
      fsm := .idle
      seq := .idle }
  | .mvRelPwm | .mvRelCh => { s.handle with fsm := .idle, seq := .idle }
  | .rlPwm | .rlCh | .fqSend => { s.handle with seq := .idle }
  | .caSend => { s.handle with deviceAddress := s.held.newAddress, seq := .idle }

/-- A frame of the operation has failed, the failure noted or its completion still on the port (R32). -/
def frameFailed (s : State) : Bool :=
  match s.xp with
  | .answered ok => s.handle.opErr || !ok
  | .requested _ | .idle => s.handle.opErr

/-- The transport port stands as the present row left it (R62, R173). -/
def PortOfRow (s : State) : Prop :=
  match s.xp with
  | .idle => True
  | .requested f => rowFrame s = some f
  | .answered _ => rowFrame s ≠ none

/-- A block that is not busy owes no frame (R108). -/
theorem framesFrom_of_idle {s : State} (hq : s.handle.seq = .idle) : framesFrom s = [] := by
  simp [framesFrom, hq]

/-- A block that is not busy has the handle its operation left. -/
theorem endHandle_of_idle {s : State} (hq : s.handle.seq = .idle) : endHandle s = s.handle := by
  simp [endHandle, hq]

/-- The frame a row presents is the first of those it owes (R173). -/
theorem framesFrom_of_rowFrame {s : State} {f : Frame} (h : rowFrame s = some f) :
    framesFrom s = f :: (framesFrom s).tail := by
  unfold rowFrame at h
  cases hq : s.handle.seq <;> simp only [hq, reduceCtorEq, Option.some.injEq] at h <;> subst h <;>
    simp only [framesFrom, hq, moveFrames, releaseFrames, List.tail_cons]

/-- A row's effect goes on to the rows that owe what is left (R173). -/
theorem rowEffect_keeps_plan {s : State} (h : rowFrame s ≠ none) :
    framesFrom (rowEffect s) = (framesFrom s).tail ∧ endHandle (rowEffect s) = endHandle s ∧
      stepsOwed (rowEffect s) = stepsOwed s := by
  unfold rowFrame at h
  unfold rowEffect
  cases hq : s.handle.seq <;> simp only [hq, ne_eq, not_true_eq_false] at h <;>
    simp [framesFrom, endHandle, stepsOwed, hq, moveFrames, releaseFrames, stepMagnitude]

/-! ### Progress along a run -/

/-- Between `s` and `t`, inside one operation, the events `new` were added: the frames owed first, and
what `s` foretold of the end `t` foretells still. No clock is read when no step is owed (R133, R142). -/
structure Progress (s t : State) (new : List Event) : Prop where
  trace : t.trace = s.trace ++ new
  frames : framesOwed s = new.map Event.frame ++ framesOwed t
  handle : (endHandle t).determined = (endHandle s).determined
  failed : frameFailed t = (frameFailed s || !new.all Event.ok)
  unclocked : stepsOwed s = 0 → stepsOwed t = 0 ∧
    t.handle.lastStepTimestampMs = s.handle.lastStepTimestampMs ∧ t.env.clock = s.env.clock

theorem Progress.refl (s : State) : Progress s s [] where
  trace := (List.append_nil _).symm
  frames := rfl
  handle := rfl
  failed := by simp
  unclocked h := ⟨h, rfl, rfl⟩

theorem Progress.trans {s u t : State} {new new' : List Event} (h : Progress s u new)
    (h' : Progress u t new') : Progress s t (new ++ new') where
  trace := by rw [h'.trace, h.trace, List.append_assoc]
  frames := by rw [h.frames, h'.frames, List.map_append, List.append_assoc]
  handle := h'.handle.trans h.handle
  failed := by rw [h'.failed, h.failed, List.all_append, Bool.not_and, Bool.or_assoc]
  unclocked h0 := by
    obtain ⟨hu, htime, hclock⟩ := h.unclocked h0
    obtain ⟨ht, htime', hclock'⟩ := h'.unclocked hu
    exact ⟨ht, htime'.trans htime, hclock'.trans hclock⟩

/-- A row that presents its frame owes it still (R62). -/
theorem progress_present {s : State} (hx : s.xp = .idle) (f : Frame) :
    Progress s (s.setXp (.requested f)) [] where
  trace := (List.append_nil _).symm
  frames := by simp only [framesOwed, hx]; rfl
  handle := rfl
  failed := by simp [frameFailed, hx]
  unclocked h := ⟨h, rfl, rfl⟩

/-- The transport sends the first frame owed, or is late (R61, R76). -/
theorem progress_sendFrame {s : State} {f : Frame} (hx : s.xp = .requested f)
    (hf : rowFrame s = some f) :
    ∃ new, Progress s (sendFrame f s) new ∧ PortOfRow (sendFrame f s) := by
  have hclock : (drawAnswer s.env).2.clock = s.env.clock := by rw [drawAnswer_env]
  obtain hwait | ⟨ok, hanswered⟩ := sendFrame_cases f s
  · rw [hwait]
    exact ⟨[],
      { trace := (List.append_nil _).symm
        frames := by simp only [framesOwed, hx]; rfl
        handle := rfl
        failed := by simp [frameFailed, hx]
        unclocked := fun h => ⟨h, rfl, hclock⟩ }, hf⟩
  · rw [hanswered]
    exact ⟨[{ frame := f, ok := ok }],
      { trace := rfl
        frames := by simp only [framesOwed, hx]; exact framesFrom_of_rowFrame hf
        handle := rfl
        failed := by simp [frameFailed, hx]
        unclocked := fun h => ⟨h, rfl, hclock⟩ }, ne_of_eq_of_ne hf (Option.some_ne_none f)⟩

/-- A row's effect writes neither the timestamp nor `op_err` (R27, R32, R173). -/
theorem rowEffect_timestamp_opErr (s : State) :
    (rowEffect s).handle.lastStepTimestampMs = s.handle.lastStepTimestampMs ∧
      (rowEffect s).handle.opErr = s.handle.opErr := by
  rw [handle_rowEffect_frame]; exact ⟨rfl, rfl⟩

/-- Only a busy block presents a frame (R173). -/
theorem busy_of_rowFrame {s : State} (h : rowFrame s ≠ none) : s.handle.seq ≠ .idle := by
  obtain ⟨f, hf⟩ := Option.ne_none_iff_exists'.mp h
  exact (seq_ne_of_rowFrame hf).1

/-- Noting an error leaves everything but `op_err` (R142). -/
theorem endHandle_noteErr_determined (ok : Bool) (s : State) :
    (endHandle ((s.setXp .idle).setHandle (noteErr ok s.handle))).determined =
      (endHandle s).determined := by
  cases hq : s.handle.seq <;>
    simp [endHandle, stepsOwed, noteErr, MotorHandle.determined, hq]

/-- Taking a completion leads to the rows that owe what is left, with the failure noted (R32, R173). -/
theorem progress_takeCompletion {s : State} {ok : Bool} (hx : s.xp = .answered ok)
    (hf : rowFrame s ≠ none) : Progress s (takeCompletion ok s) [] := by
  obtain ⟨hxp, htrace, -, -, henv, -⟩ := takeCompletion_frame ok s
  rw [takeCompletion_busy (busy_of_rowFrame hf)] at *
  obtain ⟨hframes, hend, hsteps⟩ :=
    rowEffect_keeps_plan (s := (s.setXp .idle).setHandle (noteErr ok s.handle)) hf
  obtain ⟨htime, herr⟩ :=
    rowEffect_timestamp_opErr ((s.setXp .idle).setHandle (noteErr ok s.handle))
  exact
    { trace := htrace.trans (List.append_nil _).symm
      frames := by simp only [framesOwed, hx, hxp, hframes]; rfl
      handle := by rw [hend, endHandle_noteErr_determined]
      failed := by simp only [frameFailed, hx, hxp, herr]; simp [noteErr]
      unclocked := fun h => ⟨hsteps.trans h, htime, congrArg Env.clock henv⟩ }

/-- A poll sends nothing; an open gate takes one of the steps owed, whose frame the next row sends
(R174, R178). -/
theorem progress_pollRow {s : State} (hx : s.xp = .idle) (hq : s.handle.seq = .mvPoll) :
    Progress s (pollRow s) [] := by
  have hstay : ∀ x, Progress s (s.setSample x) [] := fun x =>
    { trace := (List.append_nil _).symm
      frames := rfl
      handle := rfl
      failed := by simp [frameFailed, hx]
      unclocked := fun h => ⟨h, rfl, rfl⟩ }
  obtain ⟨hr, hend⟩ | ⟨-, -, hwait⟩ | ⟨c, hr, -, ⟨-, hclosed⟩ | ⟨-, hopen⟩⟩ := pollRow_cases s
  · rw [hend]
    exact
      { trace := (List.append_nil _).symm
        frames := by simp [framesOwed, framesFrom, hx, hq, hr, stepFrames]
        handle := by simp [endHandle, stepsOwed, hq, hr, indexAfter]
        failed := by simp [frameFailed, hx]
        unclocked := fun _ => ⟨rfl, rfl, rfl⟩ }
  · rw [hwait]; exact .refl s
  · rw [hclosed]; exact hstay none
  · obtain ⟨r, hr⟩ := Nat.exists_eq_succ_of_ne_zero hr
    rw [hopen]
    exact
      { trace := (List.append_nil _).symm
        frames := by simp [framesOwed, framesFrom, steppedHandle, hx, hq, hr, stepFrames]
        handle := by
          simp [endHandle, stepsOwed, steppedHandle, hq, hr, indexAfter, MotorHandle.determined]
        failed := by simp [frameFailed, steppedHandle, hx]
        unclocked := fun h => by simp [stepsOwed, hq, hr] at h }

/-- The clock is asked only when a step is owed (R244). -/
theorem progress_clockStep {s : State} (hx : s.xp = .idle) (hq : s.handle.seq = .mvPoll)
    (hr : s.handle.stepsRemaining ≠ 0) : Progress s (clockStep s) [] where
  trace := (List.append_nil _).symm
  frames := rfl
  handle := rfl
  failed := by simp [frameFailed, clockStep, hx]
  unclocked h := absurd h (by simpa [stepsOwed, hq] using hr)

/-- With nothing on the transport port the port is as the row left it. -/
theorem portOfRow_of_idle {s : State} (hx : s.xp = .idle) : PortOfRow s := by
  simp [PortOfRow, hx]

/-- Every step inside an operation makes progress. -/
theorem progress_step {s t : State} (hport : PortOfRow s) (hq : s.handle.seq ≠ .idle)
    (h : step s = .next t) : ∃ new, Progress s t new ∧ PortOfRow t := by
  obtain ⟨-, hidle, -, -⟩ | ⟨r, -, hidle, -, -⟩ | ⟨f, i, hx, -, -, rfl⟩ | ⟨ok, hx, rfl⟩ |
    ⟨hx, hpoll, hr, -, rfl⟩ | ⟨hx, hpoll, rfl⟩ | ⟨f, hx, hf, rfl⟩ := step_cases h
  · exact absurd hidle hq
  · exact absurd hidle hq
  · exact progress_sendFrame hx (by simpa only [PortOfRow, hx] using hport)
  · exact ⟨[], progress_takeCompletion hx (by simpa only [PortOfRow, hx] using hport),
      portOfRow_of_idle (takeCompletion_frame ok s).1⟩
  · exact ⟨[], progress_clockStep hx hpoll hr, portOfRow_of_idle hx⟩
  · exact ⟨[], progress_pollRow hx hpoll, portOfRow_of_idle (by rw [pollRow_frame]; exact hx)⟩
  · exact ⟨[], progress_present hx f, hf⟩

/-- A run inside an operation makes progress, step by step. -/
theorem BusyRun.progress {s t : State} (h : BusyRun s t) (hport : PortOfRow s) :
    ∃ new, Progress s t new ∧ PortOfRow t := by
  induction h with
  | here s => exact ⟨[], .refl s, hport⟩
  | more busy one rest ih =>
    obtain ⟨new, hstep, hport'⟩ := progress_step hport busy one
    obtain ⟨new', hrest, hport''⟩ := ih hport'
    exact ⟨new ++ new', hstep.trans hrest, hport''⟩

/-! ### The response -/

/-- The response with which the block has stopped being busy (R130, R232). -/
def closingResponse (t : State) : List Response :=
  if t.handle.seq = .idle then [{ status := opStatus t.handle, value := none }] else []

/-- A row responds exactly when it ends the operation (R173). -/
theorem responses_rowEffect {s : State} (hq : s.handle.seq ≠ .idle) :
    (rowEffect s).responses = s.responses ++ closingResponse (rowEffect s) := by
  unfold rowEffect
  cases hrow : s.handle.seq
  case idle => exact absurd hrow hq
  case mvRelCh | rlCh | caSend | fqSend => rfl
  all_goals simp [closingResponse, hrow]

/-- A step of a busy block responds exactly when it ends the operation (R130). -/
theorem responses_step {s t : State} (hq : s.handle.seq ≠ .idle) (h : step s = .next t) :
    t.responses = s.responses ++ closingResponse t := by
  have hbusy : ∀ {u : State}, u.handle.seq ≠ .idle → closingResponse u = [] := fun hu => if_neg hu
  obtain ⟨-, hidle, -, -⟩ | ⟨r, -, hidle, -, -⟩ | ⟨f, i, -, -, -, rfl⟩ | ⟨ok, -, rfl⟩ |
    ⟨-, -, -, -, rfl⟩ | ⟨-, hpoll, rfl⟩ | ⟨f, -, -, rfl⟩ := step_cases h
  · exact absurd hidle hq
  · exact absurd hidle hq
  · rw [hbusy (by simpa using hq), List.append_nil, sendFrame_frame]
  · rw [takeCompletion_busy hq]
    exact responses_rowEffect (s := (s.setXp .idle).setHandle (noteErr ok s.handle)) hq
  · rw [hbusy (by simpa [clockStep] using hq), List.append_nil]; rfl
  · have hstill : (pollRow s).handle.seq ≠ .idle := by
      obtain ⟨-, hend⟩ | ⟨-, -, hwait⟩ | ⟨c, -, -, ⟨-, hclosed⟩ | ⟨-, hopen⟩⟩ := pollRow_cases s
      · simp [hend]
      · simpa [hwait] using hq
      · simpa [hclosed] using hq
      · simp [hopen, steppedHandle]
    rw [hbusy hstill, List.append_nil, pollRow_frame]
  · rw [hbusy (by simpa using hq), List.append_nil]; rfl

/-- A run from a busy state responds once, when it ends (R130). -/
theorem BusyRun.responses {s t : State} (h : BusyRun s t) (hq : s.handle.seq ≠ .idle) :
    t.responses = s.responses ++ closingResponse t := by
  induction h with
  | here s => simp [closingResponse, hq]
  | @more s u t busy one rest ih =>
    have hstep := responses_step hq one
    by_cases hu : u.handle.seq = .idle
    · cases rest with
      | here => exact hstep
      | more busy' => exact absurd hu busy'
    · rw [ih hu, hstep]; simp [closingResponse, hu]

/-! ### An operation from its acceptance to its end -/

/-- The operation accepted in `u` ends in `t`, with the events `new` added: its frames, the handle
foretold, and its response. -/
structure Completed (u t : State) (new : List Event) : Prop where
  trace : t.trace = u.trace ++ new
  frames : new.map Event.frame = framesFrom u
  handle : t.handle.determined = (endHandle u).determined
  failed : t.handle.opErr = (u.handle.opErr || !new.all Event.ok)
  responses : u.handle.seq ≠ .idle →
    t.responses = u.responses ++ [{ status := opStatus t.handle, value := none }]
  unclocked : stepsOwed u = 0 →
    t.handle.lastStepTimestampMs = u.handle.lastStepTimestampMs ∧ t.env.clock = u.env.clock

/-- A ready block has nothing on the port of a row. -/
theorem xp_eq_idle_of_portOfRow {t : State} (hport : PortOfRow t) (hq : t.handle.seq = .idle) :
    t.xp = .idle := by
  have hrow : rowFrame t = none := by simp [rowFrame, hq]
  cases hx : t.xp with
  | idle => rfl
  | requested f => simp [PortOfRow, hx, hrow] at hport
  | answered ok => simp [PortOfRow, hx, hrow] at hport

/-- Every run of a host operation completes it (R12, R130). -/
theorem OpRun.completed {s t u : State} {i : Instr} (h : OpRun s i t) (hi : i.isHostOp)
    (hu : exec i s = .next u) : ∃ new, t.trace = s.trace ++ new ∧ Completed u t new := by
  obtain ⟨⟨-, hxs⟩, ⟨v, hv, hrun⟩, hdone⟩ := h
  obtain rfl : u = v := by rw [hu] at hv; cases hv; rfl
  obtain ⟨hxp, htrace, -⟩ := exec_hostOp hi hu
  have hxu : u.xp = .idle := hxp.trans hxs
  obtain ⟨new, hprog, hport⟩ := hrun.progress (portOfRow_of_idle hxu)
  have hxt : t.xp = .idle := xp_eq_idle_of_portOfRow hport hdone
  refine ⟨new, htrace ▸ hprog.trace, hprog.trace, ?_, ?_, ?_, fun hq => ?_, fun h0 => ?_⟩
  · have hframes := hprog.frames
    simp only [framesOwed, hxu, hxt, framesFrom_of_idle hdone, List.append_nil] at hframes
    exact hframes.symm
  · rw [← hprog.handle, endHandle_of_idle hdone]
  · have hfailed := hprog.failed
    simpa only [frameFailed, hxu, hxt] using hfailed
  · rw [hrun.responses hq, closingResponse, if_pos hdone]
  · exact (hprog.unclocked h0).2

/-- A handle that agrees with `k` but for the timestamp and `op_err` is `k` with those two its own. -/
theorem Machine.MotorHandle.eq_of_determined {h k : MotorHandle} (hk : h.determined = k.determined) :
    h = { k with lastStepTimestampMs := h.lastStepTimestampMs, opErr := h.opErr } := by
  cases h
  cases k
  simp_all [MotorHandle.determined]

/-- The status that ends an operation says whether every frame of it was answered well (R232). -/
theorem opStatus_of_opErr {h : MotorHandle} {ok : Bool} (herr : h.opErr = !ok) :
    opStatus h = if ok then .ok else .transportError := by
  cases ok <;> simp [opStatus, herr]

/-- Settles O44: an accepted MOVE owes its frames and foretells its handle, and its run completes it. -/
theorem moveSendsItsFramesAndAdvances : Obligations.MoveSendsItsFramesAndAdvances := by
  intro s t a n d hmove hrun
  obtain ⟨hq, -⟩ := hrun.ready
  obtain ⟨new, htrace, hend⟩ := hrun.completed rfl (exec_move_of_canMove hq hmove a n d)
  have herr : t.handle.opErr = !new.all Event.ok := hend.failed
  refine ⟨new, htrace, hend.frames, ?_, ?_, fun hn => hend.unclocked (by rw [hn]; rfl)⟩
  · rw [← opStatus_of_opErr herr]
    exact hend.responses nofun
  · rw [MotorHandle.eq_of_determined hend.handle, ← herr]
    simp [endHandle, stepsOwed, moveAccepted, hq]

/-! ### The release frames -/

/-- Events with the two release frames are PWM off, then channels low. -/
theorem events_of_releaseFrames {new : List Event} {a : Address}
    (h : new.map Event.frame = releaseFrames a) :
    ∃ o1 o2 : Bool, new =
      [{ frame := { addr := a, b1 := 0x82#8, b2 := 0x00#8, b3 := 0x00#8 }, ok := o1 },
        { frame := { addr := a, b1 := 0xAA#8, b2 := 0x00#8, b3 := 0x00#8 }, ok := o2 }] := by
  obtain ⟨⟨_, o1⟩, rest, rfl, rfl, hrest⟩ := List.map_eq_cons_iff.mp h
  obtain ⟨⟨_, o2⟩, rfl, rfl⟩ := List.map_eq_singleton_iff.mp hrest
  exact ⟨o1, o2, rfl⟩

/-- The frames of a MOVE end with the release frames (R65, R133). -/
theorem moveFrames_eq_append_releaseFrames (p : Params) (a : Address) (spr : Nat) (d : Direction)
    (n i : Nat) : moveFrames p a spr d n i =
      (pwmSetFrame a p.dutyFull :: stepFrames a spr d n i) ++ releaseFrames a := rfl

/-- An operation whose frames end with the release frames leaves them last in the trace (R140). -/
theorem Completed.ends_with_release {u t : State} {new : List Event} (h : Completed u t new)
    {fs : List Frame} {a : Address} (hfs : framesFrom u = fs ++ releaseFrames a) :
    ∃ (pre : List Event) (o1 o2 : Bool), t.trace = pre ++
      [{ frame := { addr := a, b1 := 0x82#8, b2 := 0x00#8, b3 := 0x00#8 }, ok := o1 },
        { frame := { addr := a, b1 := 0xAA#8, b2 := 0x00#8, b3 := 0x00#8 }, ok := o2 }] := by
  obtain ⟨new₁, new₂, rfl, -, hrelease⟩ := List.map_eq_append_iff.mp (h.frames.trans hfs)
  obtain ⟨o1, o2, rfl⟩ := events_of_releaseFrames hrelease
  exact ⟨u.trace ++ new₁, o1, o2, by rw [h.trace, List.append_assoc]⟩

/-- Settles O48: the frames of both operations end with the release frames. -/
theorem deenergizedAtRest : Obligations.DeenergizedAtRest := by
  rintro s t a i (⟨⟨n, d, rfl⟩, hmove⟩ | ⟨rfl, hc⟩) hrun <;> obtain ⟨hq, -⟩ := hrun.ready
  · obtain ⟨new, -, hend⟩ := hrun.completed rfl (exec_move_of_canMove hq hmove a n d)
    exact hend.ends_with_release (moveFrames_eq_append_releaseFrames ..)
  · obtain ⟨haccepted, -, -⟩ := frameOperationsAreAccepted s hq hc
    obtain ⟨new, -, hend⟩ := hrun.completed rfl (haccepted a)
    exact hend.ends_with_release (fs := []) rfl

/-! ### The operations of one or two frames -/

/-- An accepted operation that owes no step leaves the handle foretold, with `op_err` for its frames, and
responds by them. -/
theorem Completed.of_no_steps {u t : State} {new : List Event} (h : Completed u t new)
    (hbusy : u.handle.seq ≠ .idle) (herr : u.handle.opErr = false) (hsteps : stepsOwed u = 0)
    (htime : (endHandle u).lastStepTimestampMs = u.handle.lastStepTimestampMs) :
    t.handle = { endHandle u with opErr := !new.all Event.ok } ∧
      t.responses = u.responses ++
        [{ status := if new.all Event.ok then .ok else .transportError, value := none }] := by
  have hfailed : t.handle.opErr = !new.all Event.ok := by rw [h.failed, herr, Bool.false_or]
  refine ⟨?_, by rw [← opStatus_of_opErr hfailed]; exact h.responses hbusy⟩
  rw [MotorHandle.eq_of_determined h.handle, (h.unclocked hsteps).1, ← htime, hfailed]

/-- Settles O49: an accepted RELEASE owes the two release frames. -/
theorem releaseSendsExactlyTwoFrames : Obligations.ReleaseSendsExactlyTwoFrames := by
  refine ⟨fun p r hr _ => by simp [decodeRequest, hr], fun s t a hc hrun => ?_⟩
  obtain ⟨hq, -⟩ := hrun.ready
  obtain ⟨haccepted, -, -⟩ := frameOperationsAreAccepted s hq hc
  obtain ⟨new, htrace, hend⟩ := hrun.completed rfl (haccepted a)
  obtain ⟨o1, o2, rfl⟩ := events_of_releaseFrames hend.frames
  obtain ⟨hhandle, hresponses⟩ := hend.of_no_steps nofun rfl rfl rfl
  refine ⟨o1, o2, htrace, ?_, ?_⟩
  · simpa [endHandle, ← hq] using hhandle
  · simpa using hresponses

/-- Settles O50: an accepted CHANGE_ADDRESS owes its one frame and the write of the new address. -/
theorem changeAddressCommitsRegardless : Obligations.ChangeAddressCommitsRegardless := by
  refine ⟨fun p r hr _ _ hc => ?_, fun s t c n persist hc hrun => ?_⟩
  · have hbit : r.c % 2 = r.c := Nat.mod_eq_of_lt hc
    simp [decodeRequest, hr, boolOfSlot, hbit, beq_eq_decide]
  · obtain ⟨hq, -⟩ := hrun.ready
    obtain ⟨-, haccepted, -⟩ := frameOperationsAreAccepted s hq hc
    obtain ⟨new, htrace, hend⟩ := hrun.completed rfl (haccepted c n persist)
    obtain ⟨⟨f, ok⟩, rfl, rfl⟩ := List.map_eq_singleton_iff.mp hend.frames
    obtain ⟨hhandle, hresponses⟩ := hend.of_no_steps nofun rfl rfl rfl
    have hmarker : markerByte (markerOf persist) = if persist then 0x53#8 else 0x4E#8 := by
      cases persist <;> rfl
    refine ⟨ok, ?_, ?_, ?_⟩
    · rw [← hmarker]; exact htrace
    · simpa [endHandle, ← hq] using hhandle
    · simpa using hresponses

/-- Settles O51: an accepted SET_FREQUENCY owes its one frame and no write. -/
theorem setFrequencyPassesThrough : Obligations.SetFrequencyPassesThrough := by
  refine ⟨fun p r hr _ _ => by simp [decodeRequest, hr], fun s t a v hc hrun => ?_⟩
  obtain ⟨hq, -⟩ := hrun.ready
  obtain ⟨-, -, haccepted⟩ := frameOperationsAreAccepted s hq hc
  obtain ⟨new, htrace, hend⟩ := hrun.completed rfl (haccepted a v)
  obtain ⟨⟨f, ok⟩, rfl, rfl⟩ := List.map_eq_singleton_iff.mp hend.frames
  obtain ⟨hhandle, hresponses⟩ := hend.of_no_steps nofun rfl rfl rfl
  refine ⟨ok, htrace, ?_, ?_⟩
  · simpa [endHandle, ← hq] using hhandle
  · simpa using hresponses

/-! ### Two runs of one operation (R142) -/

/-- Two states owe the same frames and foretell handles that agree but for the timestamp and `op_err`. -/
def SamePlan (u u' : State) : Prop :=
  framesFrom u = framesFrom u' ∧ (endHandle u).determined = (endHandle u').determined

/-- In two states that are not busy the handle foretold is the handle. -/
theorem samePlan_of_idle {u u' : State} (hq : u.handle.seq = .idle)
    (hh : u.handle.determined = u'.handle.determined) : SamePlan u u' := by
  have hq' : u'.handle.seq = .idle := (congrArg MotorHandle.seq hh).symm.trans hq
  exact ⟨by rw [framesFrom_of_idle hq, framesFrom_of_idle hq'],
    by rwa [endHandle_of_idle hq, endHandle_of_idle hq']⟩

/-- Two handles that agree pass the same checks, so an operation accepted in one run is accepted in the
other (R130). -/
theorem samePlan_of_acceptOp {needs ok : Bool} {body : State → State} {s s' t t' : State}
    (hh : s.handle.determined = s'.handle.determined)
    (h : acceptOp needs ok body s = .next t) (h' : acceptOp needs ok body s' = .next t')
    (hbody : s.handle.seq = .idle → SamePlan (body (s.setHandle (clearErr s.handle)))
      (body (s'.setHandle (clearErr s'.handle)))) : SamePlan t t' := by
  have hc' : s.handle.constructed = s'.handle.constructed := (congrArg MotorHandle.constructed hh :)
  obtain ⟨hq', -⟩ := acceptOp_cases h'
  obtain ⟨hq, ⟨rfl, hc, rfl⟩ | ⟨hn, rfl, rfl⟩ | ⟨hn, hok, rfl⟩⟩ := acceptOp_cases h
  · rw [acceptOp_unconstructed hq' (hc' ▸ hc)] at h'
    cases h'
    exact samePlan_of_idle hq hh
  · rw [acceptOp_misconfigured hq' (hc' ▸ hn)] at h'
    cases h'
    exact samePlan_of_idle hq hh
  · rw [acceptOp_accepts hq' (hc' ▸ hn) hok] at h'
    cases h'
    exact hbody hq

/-- One operation accepted by two handles that agree, CONSTRUCT with the same free values, leaves two
states of the same plan (R142; log 2). -/
theorem samePlan_of_exec {i : Instr} (hi : i.isHostOp) {s s' t t' : State}
    (hh : s.handle.determined = s'.handle.determined) (hp : s.params = s'.params)
    (hsource : s.env.source = s'.env.source) (hdraws : s.env.freeDraws = s'.env.freeDraws)
    (h : exec i s = .next t) (h' : exec i s' = .next t') : SamePlan t t' := by
  obtain ⟨time, err, hs'⟩ : ∃ time err,
      s'.handle = { s.handle with lastStepTimestampMs := time, opErr := err } :=
    ⟨_, _, MotorHandle.eq_of_determined hh.symm⟩
  cases i <;> simp only [exec, execConstruct, execSetSpeed, execMove, execRelease,
    execChangeAddress, execSetFrequency, execQueryVersion, execReserved7] at h h'
  case construct =>
    refine samePlan_of_acceptOp hh h h' fun _ => samePlan_of_idle rfl ?_
    simp [constructedHandle, MotorHandle.determined, hsource, hdraws]
  case setSpeed =>
    refine samePlan_of_acceptOp hh h h' fun hq => samePlan_of_idle hq ?_
    simp [clearErr, MotorHandle.determined, hs']
  case queryVersion =>
    exact samePlan_of_acceptOp hh h h' fun hq => samePlan_of_idle hq hh
  case reserved7 =>
    split at h <;> rename_i hq <;> cases h
    split at h' <;> cases h'
    exact samePlan_of_idle (by simpa [State.busy] using hq) hh
  case move =>
    rw [show s'.handle.stepDelayValid = s.handle.stepDelayValid by rw [hs']] at h'
    refine samePlan_of_acceptOp hh h h' fun _ => ?_
    simp [SamePlan, framesFrom, endHandle, stepsOwed, clearErr, MotorHandle.determined, hs', hp]
  case release | changeAddress | setFrequency =>
    refine samePlan_of_acceptOp hh h h' fun _ => ?_
    simp [SamePlan, framesFrom, endHandle, clearErr, MotorHandle.determined, hs']
  all_goals cases hi

/-- Settles O52: the two acceptances leave the same plan, and each run completes its own. -/
theorem framesAndHandleAreDetermined : Obligations.FramesAndHandleAreDetermined := by
  intro i s s' t t' hi hh hp hsource hdraws hrun hrun'
  obtain ⟨u, hu⟩ := exec_hostOp_next hi hrun.ready.1
  obtain ⟨u', hu'⟩ := exec_hostOp_next hi hrun'.ready.1
  obtain ⟨hframes, hend⟩ := samePlan_of_exec hi hh hp hsource hdraws hu hu'
  obtain ⟨new, htrace, hdone⟩ := hrun.completed hi hu
  obtain ⟨new', htrace', hdone'⟩ := hrun'.completed hi hu'
  refine ⟨hdone.handle.trans (hend.trans hdone'.handle.symm), new, new', htrace, htrace', ?_⟩
  rw [hdone.frames, hdone'.frames, hframes]

end Sys2Proof

/-! ## The frames of a MOVE counted, and its index (R138, R139, R184) -/

namespace Sys2Proof

open Machine

/-! ### The frames counted (R138) -/

/-- A frame that energizes a winding: CHANNEL_SET with a pattern other than off (R138). -/
def isStepFrame (f : Frame) : Bool := f.b1 == 0xAA#8 && f.b2 != 0x00#8

/-- No pattern of the phase table is off (R201). -/
theorem isStepFrame_channelSetFrame (a : Address) (i : Nat) :
    isStepFrame (channelSetFrame a (patternOf i)) = true := by
  have hrow : ∀ k : BitVec 2, isStepFrame (channelSetFrame a (phasePattern k)) = true := by
    intro k
    simp only [isStepFrame, channelSetFrame]
    revert k
    decide
  exact hrow _

/-- The pattern frames are one for each step, each with a pattern, all to one address (R138). -/
theorem stepFrames_count (a : Address) (spr : Nat) (d : Direction) (n i : Nat) :
    (stepFrames a spr d n i).length = n ∧ (stepFrames a spr d n i).filter isStepFrame =
      stepFrames a spr d n i ∧ ∀ f ∈ stepFrames a spr d n i, f.addr = a := by
  induction n generalizing i with
  | zero => simp [stepFrames]
  | succ n ih =>
    obtain ⟨hlength, hfilter, haddr⟩ := ih (advanceIndex spr d i)
    refine ⟨by simp [stepFrames, hlength], ?_, ?_⟩
    · rw [stepFrames, List.filter_cons_of_pos (isStepFrame_channelSetFrame a _), hfilter]
    · simpa [stepFrames, channelSetFrame] using haddr

/-- Settles O45: the three other frames are the two duty frames and the frame of pattern off. -/
theorem moveFrameCounts : Obligations.MoveFrameCounts := by
  intro p a spr d n i
  obtain ⟨hlength, hfilter, haddr⟩ := stepFrames_count a spr d n i
  refine ⟨by simp [moveFrames, releaseFrames, hlength], ?_, fun f hf => ?_⟩
  · have henergize : isStepFrame (pwmSetFrame a p.dutyFull) = false := rfl
    have hrelease : (releaseFrames a).filter isStepFrame = [] := rfl
    change ((moveFrames p a spr d n i).filter isStepFrame).length = n
    rw [moveFrames, List.filter_cons_of_neg (by simp [henergize]), List.filter_append, hrelease,
      hfilter, List.append_nil, hlength]
  · simp only [moveFrames, releaseFrames, List.mem_cons, List.mem_append, List.not_mem_nil] at hf
    obtain rfl | hstep | rfl | rfl | hnil := hf
    · rfl
    · exact haddr f hstep
    · rfl
    · rfl
    · exact hnil.elim

/-! ### The index (R139, R176) -/

/-- The sign of a direction: one step forward adds 1, one backward takes 1 away (R139). -/
def directionSign : Direction → Int
  | .forward => 1
  | .backward => -1

/-- One advance adds the direction's sign modulo the revolution (R176). -/
theorem advanceIndex_emod {spr i : Nat} (d : Direction) (h : i < spr) :
    (advanceIndex spr d i : Int) = ((i : Int) + directionSign d) % (spr : Int) := by
  cases d <;> simp only [advanceIndex, directionSign] <;> split
  case forward.isTrue hwrap =>
    rw [show (i : Int) + 1 = spr by omega, Int.emod_self]; rfl
  case forward.isFalse hinside => rw [Int.emod_eq_of_lt] <;> omega
  case backward.isTrue hwrap =>
    rw [← Int.add_emod_right, Int.emod_eq_of_lt] <;> omega
  case backward.isFalse hinside => rw [Int.emod_eq_of_lt] <;> omega

/-- `n` advances stay in range (R25). -/
theorem indexAfter_lt {spr : Nat} (d : Direction) (n : Nat) {i : Nat} (h : i < spr) :
    indexAfter spr d n i < spr := by
  induction n generalizing i with
  | zero => exact h
  | succ n ih => exact ih (advanceIndex_lt d h)

/-- `n` advances add `n` times the direction's sign modulo the revolution (R139). -/
theorem indexAfter_emod {spr : Nat} (d : Direction) (n : Nat) {i : Nat} (h : i < spr) :
    (indexAfter spr d n i : Int) = ((i : Int) + directionSign d * n) % (spr : Int) := by
  induction n generalizing i with
  | zero => simpa [indexAfter] using (Int.emod_eq_of_lt (by omega) (by omega : (i : Int) < spr)).symm
  | succ n ih =>
    calc (indexAfter spr d (n + 1) i : Int)
        = (advanceIndex spr d i + directionSign d * n) % spr := ih (advanceIndex_lt d h)
      _ = (i + directionSign d + directionSign d * n) % spr := by
        rw [advanceIndex_emod d h, Int.emod_add_emod]
      _ = (i + directionSign d * (n + 1 : Nat)) % spr := by push_cast; ring_nf

/-- Settles O46. -/
theorem indexAfterStepsIsModular : Obligations.IndexAfterStepsIsModular := by
  intro spr i n h
  have hforward := indexAfter_emod .forward n h
  have hbackward := indexAfter_emod .backward n h
  simp only [directionSign, one_mul, neg_one_mul, ← sub_eq_add_neg] at hforward hbackward
  exact ⟨hforward, hbackward, fun d => indexAfter_lt d n h⟩

/-- As many advances backward as forward return the index (R139). -/
theorem indexAfter_backward_forward {spr : Nat} (n : Nat) {i : Nat} (h : i < spr) :
    indexAfter spr .backward n (indexAfter spr .forward n i) = i := by
  have hback := indexAfter_emod .backward n (indexAfter_lt .forward n h)
  rw [indexAfter_emod .forward n h, Int.emod_add_emod,
    show (i : Int) + directionSign .forward * n + directionSign .backward * n = i by
      simp [directionSign],
    Int.emod_eq_of_lt (by omega) (by omega)] at hback
  exact Int.ofNat_inj.mp hback

/-! ### The round trip (R139) -/

/-- What a MOVE needs and moves stands in `k` as in `h`: a speed set stays set (R24, R25, R139). -/
structure KeepsPosition (h k : MotorHandle) : Prop where
  index : k.currentPhaseIndex = h.currentPhaseIndex
  spr : k.stepsPerRevolution = h.stepsPerRevolution
  constructed : k.constructed = h.constructed
  delayValid : h.stepDelayValid = true → k.stepDelayValid = true

theorem KeepsPosition.refl (h : MotorHandle) : KeepsPosition h h := ⟨rfl, rfl, rfl, id⟩

theorem KeepsPosition.trans {h k l : MotorHandle} (hk : KeepsPosition h k) (kl : KeepsPosition k l) :
    KeepsPosition h l :=
  ⟨kl.index.trans hk.index, kl.spr.trans hk.spr, kl.constructed.trans hk.constructed,
    fun hv => kl.delayValid (hk.delayValid hv)⟩

/-- Every operation but CONSTRUCT keeps the position (R131 to R137). -/
theorem keepsPosition_of_hostOpEffect {i : Instr} {h : MotorHandle} {t : State}
    (heffect : HostOpEffect i h t) (hi : ∀ spr a, i ≠ .construct spr a) :
    KeepsPosition h t.handle := by
  cases heffect with
  | construct _ _ hconstruct => exact absurd hconstruct (hi _ _)
  | setSpeed _ _ _ hh => rw [hh]; exact ⟨rfl, rfl, rfl, fun _ => rfl⟩
  | refused hh | move _ _ _ _ hh | release _ _ hh | changeAddress _ hh | setFrequency _ hh
  | queryVersion hh => rw [hh]; exact ⟨rfl, rfl, rfl, id⟩

/-- A quiet step keeps the position (R139). -/
theorem QuietStep.keepsPosition {s t : State} (h : QuietStep s t) :
    KeepsPosition s.handle t.handle := by
  obtain hh | ⟨hready, r, hcmd, heffect⟩ | ⟨ok, -, rfl⟩ | ⟨hq, -⟩ := step_handle_cases h.one
  · rw [hh]; exact .refl _
  · exact keepsPosition_of_hostOpEffect heffect (h.noConstruct hready r hcmd)
  · rw [handle_takeCompletion_frame]; exact ⟨rfl, rfl, rfl, id⟩
  · exact absurd h.noMove (by simp [hq, Seq.isMove])

/-- A quiet run keeps the position. -/
theorem QuietRun.keepsPosition {s t : State} (h : QuietRun s t) : KeepsPosition s.handle t.handle := by
  induction h with
  | here s => exact .refl _
  | more one _ ih => exact one.keepsPosition.trans ih

/-- A MOVE that ran to its end has advanced the index and kept what the next one needs (R133, R139). -/
theorem OpRun.move_index {s t : State} {a : Address} {n : Int} {d : Direction} (hs : s.canMove)
    (h : OpRun s (.move a n d) t) :
    t.handle.currentPhaseIndex = indexAfter s.handle.stepsPerRevolution d n.natAbs
        s.handle.currentPhaseIndex ∧
      t.handle.stepsPerRevolution = s.handle.stepsPerRevolution ∧ t.canMove := by
  obtain ⟨new, -, -, -, hh, -⟩ := moveSendsItsFramesAndAdvances s t a n d hs h
  obtain ⟨hc, hv⟩ := hs
  rw [State.canMove, hh]
  exact ⟨rfl, rfl, hc, hv⟩

/-- Settles O47: the run between keeps the position, and the second move undoes the first. -/
theorem roundTripReturnsTheIndex : Obligations.RoundTripReturnsTheIndex := by
  intro s t t' u a b n hs _ hindex hforward hquiet hbackward
  obtain ⟨hti, htspr, htc, htv⟩ := hforward.move_index hs
  have hkeeps := hquiet.keepsPosition
  have ht' : t'.canMove := ⟨hkeeps.constructed.trans htc, hkeeps.delayValid htv⟩
  obtain ⟨hui, -⟩ := hbackward.move_index ht'
  rw [hui, hkeeps.spr, hkeeps.index, htspr, hti, indexAfter_backward_forward _ hindex]

end Sys2Proof

/-! ## A MOVE ends when every SendFrame returns and the clock keeps advancing (R138, R181)

An environment is the stream `T` of the clock's coming samples and the stream `A` of the transport's coming
answers. A step uses up at most the first of each and leaves the same environment with the rest. -/

namespace Sys2Proof

open Machine

/-! ### The environment under a step -/

/-- The stream without its first entry. -/
def later {α : Type} (F : Nat → α) : Nat → α := fun i => F (i + 1)

/-- Answers placed give the frame its first one and leave the rest (R76; log 5). -/
theorem sendFrame_under (s : State) (f : Frame) (T : Nat → Nat) (A : Nat → Option Bool) (m k : Nat) :
    sendFrame f (s.under T A m (k + 1)) = (complete f (A 0) s).under T (later A) m k := by
  have hanswers : (s.under T A m (k + 1)).env.answers = A 0 :: (List.range k).map (later A) := by
    simp only [State.under, List.range_succ_eq_map, List.map_cons, List.map_map]
    rfl
  rw [sendFrame_of_answers hanswers]
  cases A 0 <;> rfl

/-- `s` with the clock at the time `c`, just sampled (R244, R245). -/
def sampled (s : State) (c : Nat) : State :=
  (s.setEnv { s.env with clock := c }).setSample (some (c % 2 ^ s.params.clkW))

/-- Advances placed take the clock to its first sample and leave the rest (R245; log 6). -/
theorem clockStep_under {s : State} {T : Nat → Nat} (h : s.env.clock ≤ T 0) (A : Nat → Option Bool)
    (m k : Nat) : clockStep (s.under T A (m + 1) k) = (sampled s (T 0)).under (later T) A m k := by
  have hticks : (s.under T A (m + 1) k).env.ticks = (T 0 - s.env.clock) ::
      (List.range m).map (fun i => later T i - (if i = 0 then T 0 else later T (i - 1))) := by
    simp only [State.under, List.range_succ_eq_map, List.map_cons, List.map_map, if_pos]
    refine congrArg _ (List.map_congr_left fun i _ => ?_)
    cases i <;> rfl
  have hclock : s.env.clock + (T 0 - s.env.clock) = T 0 := Nat.add_sub_of_le h
  have htick : tick (s.under T A (m + 1) k).env =
      ((sampled s (T 0)).under (later T) A m k).env := by
    unfold tick
    rw [hticks]
    simp [State.under, sampled, hclock]
  rw [clockStep, htick]
  rfl

/-- A row's effect reads no environment (R173). -/
theorem rowEffect_under (s : State) (T : Nat → Nat) (A : Nat → Option Bool) (m k : Nat) :
    rowEffect (s.under T A m k) = (rowEffect s).under T A m k := by
  cases hq : s.handle.seq <;>
    simp only [rowEffect, hq, show (s.under T A m k).handle.seq = _ from hq] <;> rfl

/-- A row's completion reads no environment (R173). -/
theorem takeCompletion_under (s : State) (ok : Bool) (T : Nat → Nat) (A : Nat → Option Bool)
    (m k : Nat) : takeCompletion ok (s.under T A m k) = (takeCompletion ok s).under T A m k := by
  by_cases hq : s.handle.seq = .idle
  · rw [takeCompletion_ready hq, takeCompletion_ready (s := s.under T A m k) hq]; rfl
  · rw [takeCompletion_busy hq, takeCompletion_busy (s := s.under T A m k) hq, ← rowEffect_under]
    rfl

/-! ### An operation that ends -/

/-- The operation in progress ends under the environment: with enough samples and answers placed, and with
any more (R181). -/
def Ends (s : State) (T : Nat → Nat) (A : Nat → Option Bool) : Prop :=
  ∃ m k, ∀ m' k', m ≤ m' → k ≤ k' → ∃ t, BusyRun (s.under T A m' k') t ∧ t.handle.seq = .idle

theorem ends_of_idle {s : State} (hq : s.handle.seq = .idle) (T : Nat → Nat)
    (A : Nat → Option Bool) : Ends s T A :=
  ⟨0, 0, fun m k _ _ => ⟨s.under T A m k, .here _, hq⟩⟩

/-- A step that uses up `a` samples and `b` answers puts off the end by so many. -/
theorem Ends.of_step {s u : State} {T T' : Nat → Nat} {A A' : Nat → Option Bool} (h : Ends u T' A')
    (a b : Nat) (hq : s.handle.seq ≠ .idle)
    (hstep : ∀ m k, step (s.under T A (m + a) (k + b)) = .next (u.under T' A' m k)) :
    Ends s T A := by
  obtain ⟨m, k, hrun⟩ := h
  refine ⟨m + a, k + b, fun m' k' hm hk => ?_⟩
  obtain ⟨m₁, rfl⟩ := Nat.exists_eq_add_of_le' (Nat.le_of_add_left_le hm)
  obtain ⟨k₁, rfl⟩ := Nat.exists_eq_add_of_le' (Nat.le_of_add_left_le hk)
  obtain ⟨t, hbusy, hdone⟩ := hrun m₁ k₁ (by omega) (by omega)
  exact ⟨t, .more hq (hstep m₁ k₁) hbusy, hdone⟩

/-- A step that uses up no sample and no answer keeps the end where it is. -/
theorem Ends.of_inner_step {s u : State} {T : Nat → Nat} {A : Nat → Option Bool} (h : Ends u T A)
    (hq : s.handle.seq ≠ .idle)
    (hstep : ∀ m k, step (s.under T A m k) = .next (u.under T A m k)) : Ends s T A :=
  h.of_step 0 0 hq hstep

/-! ### The rows of one frame -/

/-- Every SendFrame returns: after any answer that is out there is one that is not (R138, R181). -/
def TransportReturns (A : Nat → Option Bool) : Prop := ∀ i, ∃ j, i ≤ j ∧ A j ≠ none

theorem TransportReturns.later {A : Nat → Option Bool} (h : TransportReturns A) :
    TransportReturns (later A) := fun i => by
  obtain ⟨j, hij, hj⟩ := h (i + 1)
  obtain ⟨j, rfl⟩ : ∃ j', j = j' + 1 := ⟨j - 1, by omega⟩
  exact ⟨j, by omega, hj⟩

/-- The state after the row's frame `f` was answered `ok` and its completion taken (R173). -/
def rowDone (f : Frame) (ok : Bool) (s : State) : State :=
  takeCompletion ok ((s.setXp (.answered ok)).record { frame := f, ok := ok })

/-- A row's frame is that of a frame command, so the transport can run it (R103). -/
theorem exists_decodeFrame_of_rowFrame {s : State} {f : Frame} (h : rowFrame s = some f) :
    ∃ i, decodeFrame f = .ok i ∧ i.frame? = some f := by
  have hcommand : ∃ i : Instr, i.frame? = some f := by
    unfold rowFrame at h
    cases hq : s.handle.seq <;> simp only [hq, reduceCtorEq, Option.some.injEq] at h <;> subst h
    case mvEnergize | mvRelPwm | rlPwm => exact ⟨.pwmSet _ _, rfl⟩
    case mvEmit | mvRelCh | rlCh => exact ⟨.channelSet _ _, rfl⟩
    case caSend => exact ⟨.addrChange _ _ _, rfl⟩
    case fqSend => exact ⟨.freqSet _ _, rfl⟩
  obtain ⟨i, hi⟩ := hcommand
  exact ⟨i, decodeFrame_of_frame hi, hi⟩

/-- A frame outstanding is answered after some time, and then the row goes on (R61, R181). -/
theorem ends_of_outstanding {s : State} {f : Frame} {T : Nat → Nat} {A : Nat → Option Bool}
    (hf : rowFrame s = some f) (hA : TransportReturns A)
    (hnext : ∀ ok A', TransportReturns A' → Ends (rowDone f ok s) T A') :
    Ends (s.setXp (.requested f)) T A := by
  have hbusy := (seq_ne_of_rowFrame hf).1
  obtain ⟨i, hdecode, hi⟩ := exists_decodeFrame_of_rowFrame hf
  obtain ⟨j, -, hj⟩ := hA 0
  have hstep : ∀ A m k, step ((s.setXp (.requested f)).under T A (m + 0) (k + 1)) =
      .next ((complete f (A 0) (s.setXp (.requested f))).under T (later A) m k) := fun A m k => by
    rw [step_transport (f := f) rfl hdecode, exec_frame hi, sendFrame_under]; rfl
  have hanswered : ∀ A ok, TransportReturns A → A 0 = some ok →
      Ends (s.setXp (.requested f)) T A := fun A ok hA h0 => by
    refine ((hnext ok (later A) hA.later).of_inner_step ?_ fun m k => ?_).of_step 0 1 hbusy (hstep A)
    · rw [h0]; exact hbusy
    · rw [h0, step_completion (ok := ok) rfl, takeCompletion_under]; rfl
  induction j generalizing A with
  | zero =>
    obtain ⟨ok, h0⟩ := Option.ne_none_iff_exists'.mp hj
    exact hanswered A ok hA h0
  | succ j ih =>
    cases h0 : A 0 with
    | some ok => exact hanswered A ok hA h0
    | none =>
      refine (ih hA.later hj).of_step 0 1 hbusy fun m k => ?_
      rw [hstep, h0]; rfl

/-- A row that presents its frame ends when the rows after it do. -/
theorem ends_of_row {s : State} {f : Frame} {T : Nat → Nat} {A : Nat → Option Bool}
    (hx : s.xp = .idle) (hf : rowFrame s = some f) (hA : TransportReturns A)
    (hnext : ∀ ok A', TransportReturns A' → Ends (rowDone f ok s) T A') : Ends s T A :=
  (ends_of_outstanding hf hA hnext).of_inner_step (seq_ne_of_rowFrame hf).1
    fun m k => step_present (s := s.under T A m k) hx hf

/-- The row's completion leaves the ports, the parameters and the clock as they were (R173). -/
theorem rowDone_frame (f : Frame) (ok : Bool) (s : State) :
    (rowDone f ok s).xp = .idle ∧ (rowDone f ok s).sample = s.sample ∧
      (rowDone f ok s).params = s.params ∧ (rowDone f ok s).env = s.env := by
  obtain ⟨hxp, -, hparams, -, henv, -, -, hsample⟩ :=
    takeCompletion_frame ok ((s.setXp (.answered ok)).record { frame := f, ok := ok })
  exact ⟨hxp, hsample, hparams, henv⟩

/-- In a busy block the row's completion is its effect on the handle with the error noted (R173). -/
theorem rowDone_busy {s : State} (hq : s.handle.seq ≠ .idle) (f : Frame) (ok : Bool) :
    rowDone f ok s = rowEffect (((s.setXp .idle).record { frame := f, ok := ok }).setHandle
      (noteErr ok s.handle)) :=
  takeCompletion_busy (s := (s.setXp (.answered ok)).record { frame := f, ok := ok }) hq ok

/-- MV_REL_CH is the last row (R173). -/
theorem ends_of_mvRelCh {s : State} {T : Nat → Nat} {A : Nat → Option Bool} (hx : s.xp = .idle)
    (hq : s.handle.seq = .mvRelCh) (hA : TransportReturns A) : Ends s T A := by
  refine ends_of_row (f := channelSetFrame s.handle.deviceAddress patternOff) hx
    (by simp [rowFrame, hq]) hA fun ok A' _ => ends_of_idle ?_ T A'
  rw [rowDone_busy (by simp [hq])]
  simp [rowEffect, noteErr, hq]

/-- MV_REL_PWM is followed by MV_REL_CH (R173). -/
theorem ends_of_mvRelPwm {s : State} {T : Nat → Nat} {A : Nat → Option Bool} (hx : s.xp = .idle)
    (hq : s.handle.seq = .mvRelPwm) (hA : TransportReturns A) : Ends s T A := by
  refine ends_of_row (f := pwmSetFrame s.handle.deviceAddress dutyOff) hx
    (by simp [rowFrame, hq]) hA fun ok A' hA' => ends_of_mvRelCh (rowDone_frame _ ok s).1 ?_ hA'
  rw [rowDone_busy (by simp [hq])]
  simp [rowEffect, noteErr, hq]

/-! ### The polls -/

/-- The clock keeps advancing: its samples never go back, and from the stored timestamp and from every
sample some later one is a whole delay further on (R181). -/
structure ClockAdvances (s : State) (T : Nat → Nat) : Prop where
  start : s.env.clock ≤ T 0
  mono : ∀ i, T i ≤ T (i + 1)
  fromStored : ∃ j, s.handle.stepDelayMs.toNat ≤
    elapsedMs s.params.clkW (T j % 2 ^ s.params.clkW) s.handle.lastStepTimestampMs
  fromSample : ∀ i, ∃ j, i < j ∧ s.handle.stepDelayMs.toNat ≤
    elapsedMs s.params.clkW (T j % 2 ^ s.params.clkW) (T i % 2 ^ s.params.clkW)

/-- What is left of a MOVE in the row MV_POLL with `r` steps remaining, under its environment. -/
structure Polling (s : State) (T : Nat → Nat) (A : Nat → Option Bool) (r : Nat) : Prop where
  port : s.xp = .idle
  row : s.handle.seq = .mvPoll
  count : s.handle.stepsRemaining = r
  sample : s.sample = none
  clock : ClockAdvances s T
  transport : TransportReturns A

/-- A poll with no step left ends the loop (R174). -/
theorem pollRow_of_done {s : State} (hr : s.handle.stepsRemaining = 0) :
    pollRow s = s.setHandle { s.handle with seq := .mvRelPwm } := if_pos hr

/-- A poll whose gate is open takes the step (R174). -/
theorem pollRow_of_open {s : State} {c : Nat} (hr : s.handle.stepsRemaining ≠ 0)
    (hs : s.sample = some c) (hgate : gateOpen s.params s.handle c = true) :
    pollRow s = (s.setSample none).setHandle (steppedHandle c s.handle) := by
  simp [pollRow, pollAt, hr, hs, hgate]

/-- A poll whose gate is closed only uses up the sample (R174). -/
theorem pollRow_of_closed {s : State} {c : Nat} (hr : s.handle.stepsRemaining ≠ 0)
    (hs : s.sample = some c) (hgate : gateOpen s.params s.handle c = false) :
    pollRow s = s.setSample none := by
  simp [pollRow, pollAt, hr, hs, hgate]

/-- `s` with the clock at the time `c` and no sample standing. -/
def clockAt (s : State) (c : Nat) : State := (sampled s c).setSample none

/-- The state of `Polling` after an open gate: the step of the sample at time `c` taken (R174). -/
def steppedAt (s : State) (c : Nat) : State :=
  (clockAt s c).setHandle (steppedHandle (c % 2 ^ s.params.clkW) s.handle)

/-- A poll with steps left takes the first sample and ends as the gate decides (R174). -/
theorem Polling.ends_of_gate {s : State} {T : Nat → Nat} {A : Nat → Option Bool} {r : Nat}
    (h : Polling s T A (r + 1)) (hopen : Ends (steppedAt s (T 0)) (later T) A)
    (hclosed : gateOpen s.params s.handle (T 0 % 2 ^ s.params.clkW) = false →
      Ends (clockAt s (T 0)) (later T) A) : Ends s T A := by
  have hbusy : s.handle.seq ≠ .idle := by simp [h.row]
  have hcount : s.handle.stepsRemaining ≠ 0 := by simp [h.count]
  have hpoll : Ends (sampled s (T 0)) (later T) A := by
    have hstep : ∀ m k, step ((sampled s (T 0)).under (later T) A m k) =
        .next (pollRow ((sampled s (T 0)).under (later T) A m k)) := fun m k =>
      step_poll h.port h.row (.inr (Option.some_ne_none _))
    cases hgate : gateOpen s.params s.handle (T 0 % 2 ^ s.params.clkW) with
    | true =>
      exact hopen.of_inner_step hbusy fun m k => (hstep m k).trans
        (congrArg _ (pollRow_of_open (s := (sampled s (T 0)).under (later T) A m k) hcount rfl hgate))
    | false =>
      exact (hclosed hgate).of_inner_step hbusy fun m k => (hstep m k).trans
        (congrArg _ (pollRow_of_closed (s := (sampled s (T 0)).under (later T) A m k) hcount rfl hgate))
  exact hpoll.of_step 1 0 hbusy fun m k =>
    (step_clock (s := s.under T A (m + 1) k) h.port h.row hcount h.sample).trans
      (congrArg _ (clockStep_under h.clock.start A m k))

/-- After the first sample the clock advances by the rest of its samples (R181). -/
theorem ClockAdvances.later {s u : State} {T : Nat → Nat} (h : ClockAdvances s T)
    (hp : u.params = s.params) (hd : u.handle.stepDelayMs = s.handle.stepDelayMs)
    (hc : u.env.clock = T 0)
    (hstored : ∃ j, s.handle.stepDelayMs.toNat ≤ elapsedMs s.params.clkW
      (T (j + 1) % 2 ^ s.params.clkW) u.handle.lastStepTimestampMs) :
    ClockAdvances u (later T) where
  start := hc ▸ h.mono 0
  mono i := h.mono (i + 1)
  fromStored := by rwa [hp, hd]
  fromSample i := by
    obtain ⟨j, hij, hj⟩ := h.fromSample (i + 1)
    obtain ⟨j, rfl⟩ : ∃ j', j = j' + 1 := ⟨j - 1, by omega⟩
    rw [hp, hd]
    exact ⟨j, by omega, hj⟩

/-- A closed gate leaves the poll with the rest of the samples (R174). -/
theorem Polling.closed {s : State} {T : Nat → Nat} {A : Nat → Option Bool} {r : Nat}
    (h : Polling s T A r) (hstored : ∃ j, s.handle.stepDelayMs.toNat ≤ elapsedMs s.params.clkW
      (T (j + 1) % 2 ^ s.params.clkW) s.handle.lastStepTimestampMs) :
    Polling (clockAt s (T 0)) (later T) A r where
  port := h.port
  row := h.row
  count := h.count
  sample := rfl
  clock := h.clock.later rfl rfl rfl hstored
  transport := h.transport

/-- An open gate and its frame leave the poll with one step less, a delay to wait from this sample on
(R174, R181). -/
theorem Polling.stepped {s : State} {T : Nat → Nat} {A A' : Nat → Option Bool} {r : Nat}
    (h : Polling s T A (r + 1)) (hA' : TransportReturns A') (f : Frame) (ok : Bool) :
    Polling (rowDone f ok (steppedAt s (T 0))) (later T) A' r := by
  obtain ⟨hxp, hsample, hparams, henv⟩ := rowDone_frame f ok (steppedAt s (T 0))
  have hhandle : (rowDone f ok (steppedAt s (T 0))).handle =
      { noteErr ok (steppedHandle (T 0 % 2 ^ s.params.clkW) s.handle) with seq := .mvPoll } := by
    rw [rowDone_busy (by simp [steppedAt, steppedHandle])]; rfl
  refine ⟨hxp, by rw [hhandle], ?_, hsample, h.clock.later hparams ?_ (by rw [henv]; rfl) ?_, hA'⟩
  · rw [hhandle]
    simp [noteErr, steppedHandle, h.count]
  · rw [hhandle]; rfl
  · obtain ⟨j, hj, hdelay⟩ := h.clock.fromSample 0
    obtain ⟨j, rfl⟩ : ∃ j', j = j' + 1 := ⟨j - 1, by omega⟩
    rw [hhandle]
    exact ⟨j, hdelay⟩

/-- A MOVE in its poll ends: by induction on the steps remaining, and for each step on the number of
samples until the gate opens (R181). -/
theorem Polling.ends {s : State} {T : Nat → Nat} {A : Nat → Option Bool} {r : Nat}
    (h : Polling s T A r) : Ends s T A := by
  induction r generalizing s T A with
  | zero =>
    have hrelease : Ends (s.setHandle { s.handle with seq := .mvRelPwm }) T A :=
      ends_of_mvRelPwm h.port rfl h.transport
    exact hrelease.of_inner_step (by simp [h.row]) fun m k =>
      (step_poll (s := s.under T A m k) h.port h.row (.inl h.count)).trans
        (congrArg _ (pollRow_of_done h.count))
  | succ r ih =>
    have hopen : ∀ {s T}, Polling s T A (r + 1) → Ends (steppedAt s (T 0)) (later T) A :=
      fun h => ends_of_row h.port rfl h.transport fun ok A' hA' => ih (h.stepped hA' _ ok)
    obtain ⟨j, hj⟩ := h.clock.fromStored
    induction j generalizing s T with
    | zero =>
      exact h.ends_of_gate (hopen h) fun hclosed => absurd hj (by simpa [gateOpen] using hclosed)
    | succ j ihj => exact h.ends_of_gate (hopen h) fun _ => ihj (h.closed ⟨j, hj⟩) hj

/-- A MOVE just accepted ends: MV_ENERGIZE leads to the poll (R173, R181). -/
theorem ends_of_mvEnergize {s : State} {T : Nat → Nat} {A : Nat → Option Bool} (hx : s.xp = .idle)
    (hq : s.handle.seq = .mvEnergize) (hs : s.sample = none) (hT : ClockAdvances s T)
    (hA : TransportReturns A) : Ends s T A := by
  refine ends_of_row (f := pwmSetFrame s.handle.deviceAddress s.params.dutyFull) hx
    (by simp [rowFrame, hq]) hA fun ok A' hA' => ?_
  generalize pwmSetFrame s.handle.deviceAddress s.params.dutyFull = f
  obtain ⟨hxp, hsample, hparams, henv⟩ := rowDone_frame f ok s
  have hhandle : (rowDone f ok s).handle = { noteErr ok s.handle with
      stepsRemaining := stepMagnitude s.held.stepCount, seq := .mvPoll } := by
    rw [rowDone_busy (by simp [hq])]
    simp [rowEffect, noteErr, hq]
  have hpolling : Polling (rowDone f ok s) T A' (stepMagnitude s.held.stepCount) :=
    { port := hxp
      row := by rw [hhandle]
      count := by rw [hhandle]
      sample := hsample.trans hs
      clock := by
        refine ⟨henv ▸ hT.start, hT.mono, ?_, ?_⟩ <;> rw [hparams, hhandle]
        · exact hT.fromStored
        · exact hT.fromSample
      transport := hA' }
  exact hpolling.ends

/-- Settles O53: the accepted MOVE ends under its environment. -/
theorem moveTerminatesUnderItsPremises : Obligations.MoveTerminatesUnderItsPremises := by
  intro s a n d T A ⟨hq, hx⟩ hmove hs hstart hmono hstored hsample hA
  have hclock : ClockAdvances (moveAccepted a n d s) T := ⟨hstart, hmono, hstored, hsample⟩
  obtain ⟨m, k, hends⟩ := ends_of_mvEnergize (s := moveAccepted a n d s) hx rfl hs hclock hA
  refine ⟨m, k, fun m' k' hm hk => ?_⟩
  obtain ⟨t, hrun, hdone⟩ := hends m' k' hm hk
  have haccept : exec (.move a n d) (s.under T A m' k') =
      .next ((moveAccepted a n d s).under T A m' k') :=
    exec_move_of_canMove (s := s.under T A m' k') hq hmove a n d
  exact ⟨t, ⟨hq, hx⟩, ⟨_, haccept, hrun⟩, hdone⟩

end Sys2Proof

/-! ## What was commanded last follows the row (R170, R173, R275) -/

namespace Sys2Proof

open Machine

/-! ### The last command of each kind after one more event -/

/-- The newest event decides the last duty if it is a PWM_SET, otherwise nothing changes (R170). -/
theorem lastDuty_append (tr : List Event) (e : Event) :
    lastDuty (tr ++ [e]) =
      if e.frame.b1 = opcodeByte .pwmSet then some e.frame.b2 else lastDuty tr := by
  by_cases h : e.frame.b1 = opcodeByte .pwmSet <;> simp [lastDuty, List.filter_append, h]

/-- The newest event decides the last channel bits if it is a CHANNEL_SET, otherwise nothing changes
(R170). -/
theorem lastChannel_append (tr : List Event) (e : Event) :
    lastChannel (tr ++ [e]) =
      if e.frame.b1 = opcodeByte .channelSet then some e.frame.b2 else lastChannel tr := by
  by_cases h : e.frame.b1 = opcodeByte .channelSet <;> simp [lastChannel, List.filter_append, h]

section

variable (tr : List Event) (a : Address) (ok : Bool)

@[simp] theorem lastDuty_append_pwmSetFrame (d : Byte) :
    lastDuty (tr ++ [{ frame := pwmSetFrame a d, ok := ok }]) = some d := lastDuty_append tr _

@[simp] theorem lastDuty_append_channelSetFrame (pat : Pattern) :
    lastDuty (tr ++ [{ frame := channelSetFrame a pat, ok := ok }]) = lastDuty tr :=
  lastDuty_append tr _

@[simp] theorem lastChannel_append_pwmSetFrame (d : Byte) :
    lastChannel (tr ++ [{ frame := pwmSetFrame a d, ok := ok }]) = lastChannel tr :=
  lastChannel_append tr _

@[simp] theorem lastChannel_append_channelSetFrame (pat : Pattern) :
    lastChannel (tr ++ [{ frame := channelSetFrame a pat, ok := ok }]) =
      some (pat.zeroExtend 8) := lastChannel_append tr _

/-- The two other frame commands leave what was commanded (R170). -/
theorem atRest_append_other {f : Frame} (hpwm : f.b1 ≠ opcodeByte .pwmSet)
    (hchannel : f.b1 ≠ opcodeByte .channelSet) (h : atRest tr) :
    atRest (tr ++ [{ frame := f, ok := ok }]) := by
  rwa [atRest, lastDuty_append, lastChannel_append, if_neg hpwm, if_neg hchannel]

end

/-! ### What the trace says in each row -/

/-- What was commanded last in the row `q`, before and after its frame is answered (R170, R173). -/
def Commanded (full : Byte) (q : Seq) (answered : Bool) (tr : List Event) : Prop :=
  match q, answered with
  | .mvEnergize, true | .mvPoll, _ | .mvEmit, _ | .mvRelPwm, false => lastDuty tr = some full
  | .mvRelPwm, true | .mvRelCh, false => lastDuty tr = some dutyOff
  | .mvRelCh, true =>
    lastDuty tr = some dutyOff ∧ lastChannel tr = some (patternOff.zeroExtend 8)
  | .mvEnergize, false | .idle, _ | .rlPwm, _ | .rlCh, _ | .caSend, _ | .fqSend, _ => atRest tr

/-- Since `fsm` follows the row, the invariant is what was commanded last in the present row. -/
theorem commandedInv_iff {s : State} (inv : Inv s) :
    CommandedInv s ↔ Commanded s.params.dutyFull s.handle.seq s.rowAnswered s.trace := by
  have hfsm : s.handle.fsm = .idle ↔ s.handle.seq.isMove = false := by
    have hstepping := inv.handle.fsmStepping
    cases hf : s.handle.fsm <;> simp_all
  have hfields : CommandedInv s ↔ _ ∧ _ ∧ _ ∧ _ :=
    ⟨fun h => ⟨h.rest, h.full, h.off, h.low⟩, fun ⟨rest, full, off, low⟩ => ⟨rest, full, off, low⟩⟩
  rw [hfields, hfsm]
  cases hq : s.handle.seq <;> cases s.rowAnswered <;>
    simp [Commanded, Seq.isMove, Seq.isLoop]

/-! ### The agents' steps -/

/-- The answer to the row's frame commands what the row stands for (R173). -/
theorem commanded_answer {s : State} {f : Frame} (hf : rowFrame s = some f) (ok : Bool)
    {tr : List Event} (h : Commanded s.params.dutyFull s.handle.seq false tr) :
    Commanded s.params.dutyFull s.handle.seq true (tr ++ [{ frame := f, ok := ok }]) := by
  unfold rowFrame at hf
  cases hq : s.handle.seq <;> rw [hq] at h <;>
    simp only [hq, reduceCtorEq, Option.some.injEq] at hf <;> subst hf
  case mvEnergize | mvRelPwm => exact lastDuty_append_pwmSetFrame ..
  case mvEmit => exact (lastDuty_append_channelSetFrame ..).trans h
  case mvRelCh =>
    exact ⟨(lastDuty_append_channelSetFrame ..).trans h, lastChannel_append_channelSetFrame ..⟩
  case rlPwm =>
    obtain ⟨-, hlow⟩ := h
    exact ⟨by simp, by simpa using hlow⟩
  case rlCh =>
    obtain ⟨hoff, -⟩ := h
    exact ⟨by simpa using hoff, by simp⟩
  case caSend | fqSend =>
    exact atRest_append_other tr ok (by simp [addrChangeFrame, freqSetFrame, opcodeByte])
      (by simp [addrChangeFrame, freqSetFrame, opcodeByte]) h

/-- A row whose frame is answered leads to a row that starts from what the frame commanded (R173). -/
theorem commanded_rowEffect {s : State} {full : Byte} {tr : List Event}
    (h : Commanded full s.handle.seq true tr) :
    Commanded full (rowEffect s).handle.seq false tr := by
  unfold rowEffect
  cases hq : s.handle.seq <;> rw [hq] at h
  case idle | mvPoll => simp only [hq]; exact h
  case mvRelCh =>
    obtain ⟨hoff, hlow⟩ := h
    exact ⟨fun d hd => Option.some.inj (hd.symm.trans hoff),
      fun c hc => Option.some.inj (hc.symm.trans hlow)⟩
  all_goals exact h

/-- Every host operation leads to a row that starts at rest (R173, row `IDLE`). -/
theorem commanded_of_hostOpEffect {i : Instr} {h : MotorHandle} {t : State} {full : Byte}
    {tr : List Event} (hq : h.seq = .idle) (heffect : HostOpEffect i h t) (hrest : atRest tr) :
    Commanded full t.handle.seq false tr := by
  cases heffect with
  | refused hh | setSpeed _ _ _ hh | queryVersion hh =>
    rw [show t.handle.seq = .idle from (congrArg (·.seq) hh).trans hq]; exact hrest
  | construct _ _ _ _ hh | move _ _ _ _ hh | release _ _ hh | changeAddress _ hh
  | setFrequency _ hh => rw [hh]; exact hrest

/-- A poll stays in the loop or leaves it with the duty still full (R173, R174). -/
theorem commanded_pollRow {s : State} {full : Byte} {tr : List Event} (hq : s.handle.seq = .mvPoll)
    (h : Commanded full .mvPoll false tr) : Commanded full (pollRow s).handle.seq false tr := by
  obtain ⟨-, hend⟩ | ⟨-, -, hwait⟩ | ⟨c, -, -, ⟨-, hclosed⟩ | ⟨-, hopen⟩⟩ := pollRow_cases s
  · rw [hend]; exact h
  · rw [hwait, hq]; exact h
  · rw [hclosed, State.handle_setSample, hq]; exact h
  · rw [hopen]; exact h

theorem rowAnswered_of_idle {s : State} (hx : s.xp = .idle) : s.rowAnswered = false := by
  simp [State.rowAnswered, hx]

theorem rowAnswered_of_requested {s : State} {f : Frame} (hx : s.xp = .requested f) :
    s.rowAnswered = false := by
  simp [State.rowAnswered, hx]

theorem rowAnswered_of_answered {s : State} {ok : Bool} (hx : s.xp = .answered ok) :
    s.rowAnswered = true := by
  simp [State.rowAnswered, hx]

/-- Settles O40: a frame answered commands what its row stands for, and a row goes on only from there. -/
theorem everyStepKeepsWhatWasCommanded : Obligations.EveryStepKeepsWhatWasCommanded := by
  intro s t inv commanded h
  rw [commandedInv_iff inv] at commanded
  rw [commandedInv_iff (everyStepKeepsTheInvariant s t inv h), (step_params_transport_clock h).1]
  obtain ⟨-, -, -, rfl⟩ | ⟨r, hx, hq, -, hexec⟩ | ⟨f, i, hx, -, -, rfl⟩ | ⟨ok, hx, rfl⟩ |
    ⟨-, -, -, -, rfl⟩ | ⟨hx, hq, rfl⟩ | ⟨f, hx, -, rfl⟩ := step_cases h
  · rw [hostStep_frame]; exact commanded
  · have hop := decodeRequest_isHostOp s.params r
    obtain ⟨hxp, htrace, -⟩ := exec_hostOp hop hexec
    have heffect := exec_hostOp_effect hop hexec
    rw [rowAnswered_of_idle (hxp.trans hx), htrace]
    rw [hq] at commanded
    exact commanded_of_hostOpEffect (h := s.handle) hq heffect commanded
  · rw [rowAnswered_of_requested hx] at commanded
    obtain hwait | ⟨ok, hanswered⟩ := sendFrame_cases f s
    · rw [hwait]; exact commanded
    · rw [hanswered]; exact commanded_answer (inv.port f hx) ok commanded
  · obtain ⟨f, hf, -⟩ := inv.completion ok hx
    obtain ⟨hxp, htrace, -⟩ := takeCompletion_frame ok s
    rw [rowAnswered_of_idle hxp, htrace, takeCompletion_busy (seq_ne_of_rowFrame hf).1]
    rw [rowAnswered_of_answered hx] at commanded
    exact commanded_rowEffect (s := (s.setXp .idle).setHandle (noteErr ok s.handle)) commanded
  · exact commanded
  · rw [rowAnswered_of_idle (pollRow_frame s ▸ hx), (pollRow_trace_env s).1]
    rw [hq, rowAnswered_of_idle hx] at commanded
    exact commanded_pollRow hq commanded
  · rw [rowAnswered_of_idle hx] at commanded
    exact commanded

end Sys2Proof

/-! ## The clock and the steps (R174 to R176, R179, R180) -/

namespace Sys2Proof

open Machine

/-! ### The elapsed time -/

/-- The elapsed time is the modular difference (R175). -/
theorem elapsedMs_eq_emod (w t last : Nat) :
    (elapsedMs w t last : Int) = ((t : Int) - last) % 2 ^ w :=
  Int.toNat_of_nonneg (Int.emod_nonneg _ (by positivity))

/-- Of a clock presented modulo its width the elapsed time is that passed, modulo the width (R175). -/
theorem elapsedMs_mod {w now last : Nat} (h : last ≤ now) :
    elapsedMs w (now % 2 ^ w) (last % 2 ^ w) = (now - last) % 2 ^ w := by
  zify [h]
  rw [elapsedMs_eq_emod]
  push_cast
  exact (Int.sub_emod ..).symm

/-- The elapsed time fits the clock's width (R175). -/
theorem elapsedMs_lt (w t last : Nat) : elapsedMs w t last < 2 ^ w := by
  zify
  rw [elapsedMs_eq_emod]
  exact Int.emod_lt_of_pos _ (by positivity)

/-- Settles O27. -/
theorem elapsedIsWrapSafe : Obligations.ElapsedIsWrapSafe := by
  intro w hw
  refine ⟨elapsedMs_eq_emod w, elapsedMs_lt w, fun now last hle hlt => ?_, fun d => ?_⟩
  · rw [elapsedMs_mod hle, Nat.mod_eq_of_lt hlt]
  · exact d.isLt.trans_le (Nat.pow_le_pow_right (by decide) hw)

/-- The gate is open when the elapsed time is a delay or more (R174). -/
theorem gateOpen_iff (p : Params) (h : MotorHandle) (t : Nat) :
    gateOpen p h t = true ↔ (h.stepDelayMs.toNat : Int) ≤
      ((t : Int) - h.lastStepTimestampMs) % 2 ^ p.clkW := by
  rw [← elapsedMs_eq_emod, Nat.cast_le, gateOpen, decide_eq_true_iff]

/-! ### The advance -/

/-- Settles O28. -/
theorem advanceIsModular : Obligations.AdvanceIsModular := by
  intro spr i h
  refine ⟨advanceIndex_emod .forward h, advanceIndex_emod .backward h, fun hlast => ?_,
    fun hfirst => if_pos hfirst, fun d => advanceIndex_lt d h⟩
  exact if_pos (by omega)

/-! ### A step is a delay after the one before it -/

/-- From `s` to `u`, inside one MOVE, every step was a delay or more after the one before it: the last of
them was at the time `last`, and the sample standing, if any, is the present clock (R175, R179). -/
structure SpacedFrom (s u : State) : Prop where
  params : u.params = s.params
  delay : u.handle.stepDelayMs = s.handle.stepDelayMs
  energized : u.handle.seq ≠ .mvEnergize
  fresh : ∀ c, u.sample = some c → c = u.env.clock % 2 ^ s.params.clkW
  count : u.handle.stepsRemaining ≤ s.handle.stepsRemaining
  spaced : ∃ last, last ≤ u.env.clock ∧
    u.handle.lastStepTimestampMs = last % 2 ^ s.params.clkW ∧
    s.env.clock + (s.handle.stepsRemaining - u.handle.stepsRemaining) *
      s.handle.stepDelayMs.toNat ≤ last

section

variable {s u : State}

/-- The clock gives its own time as the sample (R244, R245). -/
theorem SpacedFrom.clockStep (h : SpacedFrom s u) : SpacedFrom s (clockStep u) where
  __ := h
  fresh c hc := by
    rw [sample_clockStep, h.params] at hc
    exact (Option.some.inj hc).symm
  spaced := by
    obtain ⟨last, hlast, hspaced⟩ := h.spaced
    exact ⟨last, hlast.trans (clock_le_clockStep u), hspaced⟩

/-- Only MV_ENERGIZE writes the count when its frame is answered (R173). -/
theorem stepsRemaining_rowEffect (hq : s.handle.seq ≠ .mvEnergize) :
    (rowEffect s).handle.stepsRemaining = s.handle.stepsRemaining := by
  unfold rowEffect
  cases hrow : s.handle.seq
  case mvEnergize => exact absurd hrow hq
  all_goals rfl

/-- A row after MV_ENERGIZE leaves the count, the delay and the timestamp (R173). -/
theorem SpacedFrom.takeCompletion (h : SpacedFrom s u) (hq : u.handle.seq ≠ .idle) (ok : Bool) :
    SpacedFrom s (takeCompletion ok u) := by
  obtain ⟨-, -, hparams, -, henv, -, -, hsample⟩ := takeCompletion_frame ok u
  have hcount : (Machine.takeCompletion ok u).handle.stepsRemaining = u.handle.stepsRemaining := by
    rw [takeCompletion_busy hq]
    exact stepsRemaining_rowEffect
      (s := (u.setXp .idle).setHandle (noteErr ok u.handle)) h.energized
  have hhandle := handle_takeCompletion_frame ok u
  refine ⟨hparams.trans h.params, ?_, ?_, ?_, hcount ▸ h.count, ?_⟩
  · rw [hhandle]; exact h.delay
  · rw [takeCompletion_busy hq]; exact seq_rowEffect_ne_mvEnergize _
  · rw [hsample, henv]; exact h.fresh
  · rw [hcount, henv, hhandle]; exact h.spaced

/-- The step of an open gate is a delay or more after the last one: the modular difference is at most the
time that passed (R174, R175, R179). -/
theorem SpacedFrom.stepped (h : SpacedFrom s u) {c : Nat} (hr : u.handle.stepsRemaining ≠ 0)
    (hs : u.sample = some c) (hgate : gateOpen u.params u.handle c = true) :
    SpacedFrom s ((u.setSample none).setHandle (steppedHandle c u.handle)) where
  params := h.params
  delay := h.delay
  energized := nofun
  fresh := nofun
  count := (Nat.sub_le _ _).trans h.count
  spaced := by
    obtain ⟨last, hlast, htime, hspaced⟩ := h.spaced
    obtain rfl := h.fresh c hs
    have hdelay : s.handle.stepDelayMs.toNat ≤ u.env.clock - last := by
      have hopen := of_decide_eq_true hgate
      rw [h.delay, h.params, htime, elapsedMs_mod hlast] at hopen
      exact hopen.trans (Nat.mod_le _ _)
    have hone : s.handle.stepsRemaining - (u.handle.stepsRemaining - 1) =
        s.handle.stepsRemaining - u.handle.stepsRemaining + 1 := by
      have hcount := h.count
      omega
    refine ⟨u.env.clock, le_rfl, rfl, ?_⟩
    change s.env.clock + (s.handle.stepsRemaining - (u.handle.stepsRemaining - 1)) * _ ≤ _
    rw [hone, Nat.succ_mul]
    omega

/-- A poll takes a step a delay after the last one, or none (R174). -/
theorem SpacedFrom.pollRow (h : SpacedFrom s u) : SpacedFrom s (pollRow u) := by
  obtain ⟨-, hend⟩ | ⟨-, -, hwait⟩ | ⟨c, hr, hs, ⟨-, hclosed⟩ | ⟨hgate, hopen⟩⟩ := pollRow_cases u
  · rw [hend]; exact { h with energized := nofun }
  · rw [hwait]; exact h
  · rw [hclosed]; exact { h with fresh := nofun }
  · rw [hopen]; exact h.stepped hr hs hgate

/-- Every step inside a MOVE keeps the spacing. -/
theorem SpacedFrom.step {v : State} (h : SpacedFrom s u) (hq : u.handle.seq ≠ .idle)
    (hstep : step u = .next v) : SpacedFrom s v := by
  obtain ⟨-, hidle, -, -⟩ | ⟨r, -, hidle, -, -⟩ | ⟨f, i, -, -, -, rfl⟩ | ⟨ok, -, rfl⟩ |
    ⟨-, -, -, -, rfl⟩ | ⟨-, -, rfl⟩ | ⟨f, -, -, rfl⟩ := step_cases hstep
  · exact absurd hidle hq
  · exact absurd hidle hq
  · rw [sendFrame_frame]; exact { h with }
  · exact h.takeCompletion hq ok
  · exact h.clockStep
  · exact h.pollRow
  · exact { h with }

/-- A run inside a MOVE keeps the spacing, step by step. -/
theorem SpacedFrom.busyRun {t : State} (h : SpacedFrom s u) (hrun : BusyRun u t) :
    SpacedFrom s t := by
  induction hrun with
  | here u => exact h
  | more busy one rest ih => exact ih (h.step busy one)

end

/-- Settles O54: a state just after a step is spaced from itself, and the run keeps it. -/
theorem stepsAreSpacedByTheDelay : Obligations.StepsAreSpacedByTheDelay := by
  intro s t hq _ hs htime hrun
  have hstart : SpacedFrom s s :=
    { params := rfl
      delay := rfl
      energized := by simp [hq]
      fresh := by simp [hs]
      count := le_rfl
      spaced := ⟨s.env.clock, le_rfl, htime, by simp⟩ }
  have hend := hstart.busyRun hrun
  obtain ⟨last, hlast, -, hspaced⟩ := hend.spaced
  exact ⟨hend.count, hspaced.trans hlast⟩

/-! ### The delay 0 -/

/-- A product above a minute's milliseconds gives the delay 0 (R132, R180). -/
theorem stepDelay_eq_zero {spr rpm : Nat} (h : 60000 < spr * rpm) : stepDelay spr rpm = 0#16 := by
  have hspr : 1 ≤ spr := Nat.pos_of_ne_zero fun h0 => by simp [h0] at h
  have hrpm : 1 ≤ rpm := Nat.pos_of_ne_zero fun h0 => by simp [h0] at h
  apply BitVec.eq_of_toNat_eq
  rw [stepDelay_toNat hspr hrpm]
  exact Nat.div_eq_of_lt h

/-- Settles O31: with the delay 0 the gate is open whatever the elapsed time (R180). -/
theorem zeroDelayStepsAtEveryPoll : Obligations.ZeroDelayStepsAtEveryPoll := by
  refine ⟨fun _ _ => stepDelay_eq_zero, fun s c hx hq hr hs hdelay => ?_⟩
  have hgate : gateOpen s.params s.handle c = true := by simp [gateOpen, hdelay]
  have hstep : step s = .next ((s.setSample none).setHandle (steppedHandle c s.handle)) := by
    rw [step_poll hx hq (.inr (by simp [hs])), pollRow_of_open hr hs hgate]
  exact ⟨_, hstep, rfl, rfl, Nat.sub_one_add_one hr, rfl⟩

end Sys2Proof

/-! ## The rows of the micro-step table and the arcs of `fsm` (R171, R173, R174) -/

namespace Sys2Proof

open Machine

/-! ### The poll -/

/-- Settles O26: without a step left the loop ends; otherwise the clock is asked once, and the gate
decides. -/
theorem pollRowGatesOneStep : Obligations.PollRowGatesOneStep := by
  intro s hx hq
  refine ⟨fun hr => ?_, step_clock hx hq, fun c hr hs => ?_⟩
  · rw [step_poll hx hq (.inl hr), pollRow_of_done hr]; rfl
  · rw [step_poll hx hq (.inr (by simp [hs]))]
    refine ⟨fun hclosed => ?_, fun hopen => ?_⟩
    · rw [pollRow_of_closed hr hs (Bool.eq_false_iff.mpr fun hgate =>
        hclosed.not_ge ((gateOpen_iff ..).mp hgate))]
      rfl
    · rw [pollRow_of_open hr hs ((gateOpen_iff ..).mpr hopen)]; rfl

/-! ### The SendFrame rows -/

/-- A busy block takes its row's completion, notes a failure and runs the row's effect (R32, R173). -/
theorem step_answered {s : State} {ok : Bool} (hx : s.xp = .answered ok) (hq : s.handle.seq ≠ .idle) :
    step s = .next (rowEffect (s.noted ok)) := by
  rw [step_completion hx, takeCompletion_busy hq]; rfl

@[simp] theorem seq_noted (s : State) (ok : Bool) : (s.noted ok).handle.seq = s.handle.seq := rfl

/-- Settles O24: row by row, the frame presented and the effect of its answer. -/
theorem moveRowsSendAndWrite : Obligations.MoveRowsSendAndWrite := by
  intro s
  refine ⟨fun hx => ⟨?_, ?_, ?_, ?_⟩, fun ok hx => ⟨?_, ?_, ?_, ?_⟩⟩ <;> intro hq
  iterate 4 exact step_present hx (by simp only [rowFrame, hq]; rfl)
  all_goals
    rw [step_answered hx (by simp [hq])]
    simp only [rowEffect, seq_noted, hq]
    rfl

/-- Settles O25: row by row, the frame presented and the effect of its answer. -/
theorem standaloneRowsSendAndWrite : Obligations.StandaloneRowsSendAndWrite := by
  intro s
  refine ⟨fun hx => ⟨?_, ?_, ?_, ?_⟩, fun ok hx => ⟨?_, ?_, ?_, ?_⟩⟩ <;> intro hq
  case refine_3 => exact step_present hx (by simp only [rowFrame, hq]; cases s.held.persist <;> rfl)
  iterate 3 exact step_present hx (by simp only [rowFrame, hq]; rfl)
  all_goals
    rw [step_answered hx (by simp [hq])]
    simp only [rowEffect, seq_noted, hq]
    rfl

/-! ### The arcs of `fsm` -/

/-- Only MV_REL_CH writes `fsm` when its frame is answered (R171, R173). -/
theorem fsm_rowEffect (s : State) :
    (rowEffect s).handle.fsm = s.handle.fsm ∨
      (s.handle.seq = .mvRelCh ∧ (rowEffect s).handle.seq = .idle) := by
  unfold rowEffect
  cases hq : s.handle.seq
  case mvRelCh => exact .inr ⟨rfl, rfl⟩
  all_goals exact .inl rfl

/-- A completion writes `fsm` only as the row MV_REL_CH does (R171, R173). -/
theorem fsm_takeCompletion (ok : Bool) (s : State) :
    (takeCompletion ok s).handle.fsm = s.handle.fsm ∨
      (s.handle.seq = .mvRelCh ∧ (takeCompletion ok s).handle.seq = .idle) := by
  by_cases hq : s.handle.seq = .idle
  · rw [takeCompletion_ready hq]; exact .inl rfl
  · rw [takeCompletion_busy hq]; exact fsm_rowEffect _

/-- A step leaves `fsm`, or takes a CONSTRUCT that makes it Idle, or accepts a MOVE, or takes the
completion of MV_REL_CH (R30, R131, R171). -/
theorem step_fsm_writers {s t : State} (h : step s = .next t) :
    t.handle.fsm = s.handle.fsm ∨ (s.ready ∧ t.handle.fsm = .idle) ∨
    (s.ready ∧ s.canMove ∧ t.handle.fsm = .stepping ∧ t.handle.seq = .mvEnergize ∧
      ∃ r a n d, s.cmd = some r ∧ decodeRequest s.params r = .move a n d) ∨
    (s.handle.seq = .mvRelCh ∧ t.handle.seq = .idle ∧
      ∃ ok, s.xp = .answered ok ∧ t = takeCompletion ok s) := by
  obtain hh | ⟨hready, r, hcmd, heffect⟩ | ⟨ok, hx, rfl⟩ | ⟨-, rfl⟩ := step_handle_cases h
  · exact .inl (congrArg (·.fsm) hh)
  · cases heffect with
    | construct _ _ _ _ hh => exact .inr (.inl ⟨hready, congrArg (·.fsm) hh⟩)
    | move hi hc hv _ hh =>
      exact .inr (.inr (.inl ⟨hready, ⟨hc, hv⟩, congrArg (·.fsm) hh, congrArg (·.seq) hh,
        r, _, _, _, hcmd, hi⟩))
    | refused hh | setSpeed _ _ _ hh | release _ _ hh | changeAddress _ hh | setFrequency _ hh
    | queryVersion hh => exact .inl (congrArg (·.fsm) hh)
  · exact (fsm_takeCompletion ok s).imp_right fun ⟨hq, hdone⟩ =>
      .inr (.inr ⟨hq, hdone, ok, hx, rfl⟩)
  · obtain ⟨q, hh⟩ | ⟨c, -, -, hh⟩ := handle_pollRow s <;> exact .inl (congrArg (·.fsm) hh)

/-- Settles O36: under the invariant a ready block is Idle, so only an accepted MOVE and the completion
of MV_REL_CH are left as arcs; that completion is of the last frame in the trace. -/
theorem fsmHasTwoArcs : Obligations.FsmHasTwoArcs := by
  intro s t inv h
  obtain hsame | ⟨⟨hq, -⟩, hidle⟩ | ⟨hready, hmove, hstepping, hq, hrequest⟩ |
    ⟨hq, hdone, ok, hx, rfl⟩ := step_fsm_writers h
  · constructor <;> intro hfrom hto <;> simp [hsame, hfrom] at hto
  · have hnomove : s.handle.fsm ≠ .stepping := by simp [inv.handle.fsmStepping, hq, Seq.isMove]
    exact ⟨fun _ hto => by simp [hidle] at hto, fun hfrom => absurd hfrom hnomove⟩
  · exact ⟨fun _ _ => ⟨hready, hmove, hq, hrequest⟩, fun _ hto => by simp [hstepping] at hto⟩
  · have hstepping : s.handle.fsm = .stepping := by simp [inv.handle.fsmStepping, hq, Seq.isMove]
    obtain ⟨-, htrace, -⟩ := takeCompletion_frame ok s
    obtain ⟨f, hf, hlast⟩ := inv.completion ok hx
    obtain rfl : channelSetFrame s.handle.deviceAddress patternOff = f := by
      simpa [rowFrame, hq] using hf
    exact ⟨fun hfrom => by simp [hstepping] at hfrom,
      fun _ _ => ⟨hq, hdone, ok, hx, htrace, hlast⟩⟩

end Sys2Proof


/-! ## The frame commands and the phase table (R201 to R208) -/

namespace Sys2Proof

open Machine

/-! ### One frame command -/

/-- With an answer placed a frame command completes with it: its frame and that answer are the one event
(R12, R76, R208). -/
theorem exec_frame_of_answered {i : Instr} {f : Frame} {s : State} {ok : Bool}
    {rest : List (Option Bool)} (hi : i.frame? = some f) (h : s.env.answers = some ok :: rest) :
    exec i s = .next { s with
      xp := .answered ok
      trace := s.trace ++ [{ frame := f, ok := ok }]
      env := { s.env with answers := rest } } := by
  rw [exec_frame hi, sendFrame_of_answers h]
  rfl

/-- Settles O21: each command's frame is the three bytes of its format, and the placed answer completes
it. -/
theorem frameCommandsSendTheirBytes : Obligations.FrameCommandsSendTheirBytes :=
  fun _ _ _ h => ⟨fun _ _ => exec_frame_of_answered rfl h, fun _ _ => exec_frame_of_answered rfl h,
    fun _ _ _ => exec_frame_of_answered rfl h, fun _ _ => exec_frame_of_answered rfl h⟩

/-- The two outcomes of a frame on the port: outstanding and not in the trace, or completed by one event
(R12, R61). -/
theorem xp_trace_sendFrame (f : Frame) (s : State) :
    ((sendFrame f s).xp = .requested f ∧ (sendFrame f s).trace = s.trace) ∨
      ∃ ok, (sendFrame f s).xp = .answered ok ∧
        (sendFrame f s).trace = s.trace ++ [{ frame := f, ok := ok }] := by
  obtain houtstanding | ⟨ok, hanswered⟩ := sendFrame_cases f s
  · exact .inl (by rw [houtstanding]; exact ⟨rfl, rfl⟩)
  · exact .inr ⟨ok, by rw [hanswered]; exact ⟨rfl, rfl⟩⟩

/-- Settles O23: the one `SendFrame` writes only the port, the trace and the transport's answers, and
its two outcomes are the frame outstanding and the frame in the trace. -/
theorem frameCommandsFrame : Obligations.FrameCommandsFrame := by
  intro i f s t hi h
  obtain rfl : sendFrame f s = t := by simpa [exec_frame hi] using h
  refine ⟨?_, ?_, ?_, ?_, ?_, ?_, ?_, ?_, xp_trace_sendFrame f s⟩
  all_goals rw [sendFrame_frame]

/-! ### The phase table -/

/-- The two low bits of a step index are those of the index mod 4 (R177, R184 (e)). -/
theorem phaseIndex_mod_four (i : Nat) : phaseIndex (i % 4) = phaseIndex i :=
  BitVec.eq_of_toNat_eq (by simp [phaseIndex_toNat])

/-- Settles O29: the four rows are read off the table, and an index picks its row by its two low bits. -/
theorem phaseTableIsTheSpecs : Obligations.PhaseTableIsTheSpecs :=
  ⟨rfl, rfl, rfl, rfl, by decide, fun i => congrArg phasePattern (phaseIndex_mod_four i).symm⟩

/-- Settles O30: a finite fact of the four rows, the last of which has the first as its successor. -/
theorem neighbourPatternsReverseOneWinding : Obligations.NeighbourPatternsReverseOneWinding := by
  refine ⟨?successors, ?pairs⟩
  case successors => decide
  case pairs => decide

end Sys2Proof


/-! ## Exceptions: CONFIG_ERROR, a step from every state of the invariant, and the status codes (R231,
R235, R238, R254) -/

namespace Sys2Proof

open Machine

/-! ### CONFIG_ERROR (R231) -/

/-- The causes of CONFIG_ERROR for the operation `i` on the handle `h`: a CONSTRUCT with 0, or, past the
check for a constructed handle, a SET_SPEED with 0 or a MOVE without a valid delay (R130, R231). -/
def ConfigErrorCause (i : Instr) (h : MotorHandle) : Prop :=
  (∃ a, i = .construct 0 a) ∨
    (h.constructed = true ∧
      (i = .setSpeed 0 ∨ (h.stepDelayValid = false ∧ ∃ a n d, i = .move a n d)))

/-- The step from `s` to `t` delivers CONFIG_ERROR, with any value. -/
def DeliversConfigError (s t : State) : Prop :=
  ∃ v, t.responses = s.responses ++ [{ status := .configError, value := v }]

theorem not_deliversConfigError_of_silent {s t : State} (h : t.responses = s.responses) :
    ¬ DeliversConfigError s t := by
  simp [DeliversConfigError, h]

theorem not_deliversConfigError_of_response {s t : State} {r : Response}
    (h : t.responses = s.responses ++ [r]) (hr : r.status ≠ .configError) :
    ¬ DeliversConfigError s t := by
  rintro ⟨v, ht⟩
  obtain rfl : r = { status := .configError, value := v } := by simpa [h] using ht
  exact hr rfl

/-- An operation whose body does not respond CONFIG_ERROR responds it only when its configuration check
fails, and then does nothing else (R130, R231). -/
theorem misconfigured_of_acceptOp {needs ok : Bool} {body : State → State} {s t : State}
    (h : acceptOp needs ok body s = .next t) (ht : DeliversConfigError s t)
    (hbody : ¬ DeliversConfigError s (body (s.setHandle (clearErr s.handle)))) :
    (needs = true → s.handle.constructed = true) ∧ ok = false ∧ t = s.answer .configError := by
  obtain ⟨-, ⟨-, -, rfl⟩ | ⟨hn, hok, rfl⟩ | ⟨-, -, rfl⟩⟩ := acceptOp_cases h
  · exact absurd ht (not_deliversConfigError_of_response rfl (by decide))
  · exact ⟨hn, hok, respond_eq_answer _ s⟩
  · exact absurd ht hbody

/-- Each cause makes a ready block respond CONFIG_ERROR and do nothing else (R231). -/
theorem exec_of_configErrorCause {i : Instr} {s : State} (hs : s.handle.seq = .idle)
    (h : ConfigErrorCause i s.handle) : exec i s = .next (s.answer .configError) := by
  obtain ⟨a, rfl⟩ | ⟨hc, rfl | ⟨hv, a, n, d, rfl⟩⟩ := h
  · unfold exec execConstruct
    exact acceptOp_misconfigured hs nofun
  · unfold exec execSetSpeed
    exact acceptOp_misconfigured hs fun _ => hc
  · unfold exec execMove
    rw [hv]
    exact acceptOp_misconfigured hs fun _ => hc

/-- A host operation that responds CONFIG_ERROR has one of the causes and does nothing else: CONSTRUCT,
SET_SPEED and MOVE have a check that can fail, and no other response has this status (R130, R231). -/
theorem configErrorCause_of_exec {i : Instr} {s t : State} (hi : i.isHostOp)
    (h : exec i s = .next t) (ht : DeliversConfigError s t) :
    ConfigErrorCause i s.handle ∧ t = s.answer .configError := by
  cases i <;> simp only [exec, execConstruct, execSetSpeed, execMove, execRelease,
    execChangeAddress, execSetFrequency, execQueryVersion, execReserved7] at h
  case construct spr a =>
    obtain ⟨-, hspr, rfl⟩ :=
      misconfigured_of_acceptOp h ht (not_deliversConfigError_of_response rfl (by decide))
    obtain rfl : spr = 0 := by simpa using hspr
    exact ⟨.inl ⟨a, rfl⟩, rfl⟩
  case setSpeed rpm =>
    obtain ⟨hc, hrpm, rfl⟩ :=
      misconfigured_of_acceptOp h ht (not_deliversConfigError_of_response rfl (by decide))
    obtain rfl : rpm = 0 := by simpa using hrpm
    exact ⟨.inr ⟨hc rfl, .inl rfl⟩, rfl⟩
  case move a n d =>
    obtain ⟨hc, hv, rfl⟩ := misconfigured_of_acceptOp h ht (not_deliversConfigError_of_silent rfl)
    exact ⟨.inr ⟨hc rfl, .inr ⟨hv, a, n, d, rfl⟩⟩, rfl⟩
  case release | changeAddress | setFrequency =>
    obtain ⟨-, hok, -⟩ := misconfigured_of_acceptOp h ht (not_deliversConfigError_of_silent rfl)
    cases hok
  case queryVersion =>
    obtain ⟨-, hok, -⟩ :=
      misconfigured_of_acceptOp h ht (not_deliversConfigError_of_response rfl (by decide))
    cases hok
  case reserved7 =>
    split at h <;> cases h
    exact absurd ht (not_deliversConfigError_of_response rfl (by decide))
  case channelSet | pwmSet | addrChange | freqSet => cases hi

/-- Settles O18: each cause is refused without effect, and nothing else responds CONFIG_ERROR. -/
theorem configErrorHasThreeCausesAndNoEffect :
    Obligations.ConfigErrorHasThreeCausesAndNoEffect := by
  intro i s hi hs
  refine ⟨⟨fun ⟨t, v, h, ht⟩ => ?cause, fun hcause => ?refused⟩, fun t v h ht => ?effect⟩
  case cause =>
    obtain ⟨hcause, -⟩ := configErrorCause_of_exec hi h ⟨v, ht⟩
    exact hcause
  case refused => exact ⟨_, none, exec_of_configErrorCause hs hcause, rfl⟩
  case effect =>
    obtain ⟨-, heffect⟩ := configErrorCause_of_exec hi h ⟨v, ht⟩
    exact heffect

/-! ### No fault, no trap, no refusal (R238, R254) -/

/-- With nothing on the transport port the block's row, the host or the clock moves: a row presents its
frame, a poll runs or asks for a sample, and an operation presented is accepted or answered (R130, R173). -/
theorem exists_step_of_port_idle {s : State} (hx : s.xp = .idle) : ∃ t, step s = .next t := by
  cases hq : s.handle.seq
  case idle =>
    cases hc : s.cmd with
    | none => exact ⟨_, step_host ⟨hq, hx⟩ hc⟩
    | some r =>
      rw [step_accept hq hx hc]
      exact exec_hostOp_next (decodeRequest_isHostOp s.params r) (s := s.setCmd none) hq
  case mvPoll =>
    by_cases hneeds : s.handle.stepsRemaining ≠ 0 ∧ s.sample = none
    · obtain ⟨hr, hsample⟩ := hneeds
      exact ⟨_, step_clock hx hq hr hsample⟩
    · exact ⟨_, step_poll hx hq (by tauto)⟩
  all_goals exact ⟨_, step_present hx (by simp only [rowFrame, hq]; rfl)⟩

/-- Settles O39: of the refusals only an undecodable frame could stand in the way, and under the invariant
a frame outstanding is its row's, which decodes. -/
theorem noStepTrapsOrRefuses : Obligations.NoStepTrapsOrRefuses := by
  intro s inv
  cases hx : s.xp with
  | requested f =>
    obtain ⟨i, hd, hi⟩ := exists_decodeFrame_of_rowFrame (inv.port f hx)
    exact ⟨_, (step_transport hx hd).trans (exec_frame hi s)⟩
  | answered ok => exact ⟨_, step_completion hx⟩
  | idle => exact exists_step_of_port_idle hx

/-! ### The status codes (R235) -/

/-- Settles O58: the five codes are read off the table, and there is no sixth status. -/
theorem statusCodesAreTheSpecs : Obligations.StatusCodesAreTheSpecs := by
  refine ⟨rfl, rfl, rfl, rfl, rfl, fun st => ?_⟩
  cases st <;> decide

end Sys2Proof
